-- ==== Sys2Proof/Word.lean ====
section
/-! DEFINITION. The words of the interfaces and the events on the bus (00_scope.md R9, R10, R16; 10_state.md R27). -/

namespace Sys2Proof

/-- A byte: an unsigned integer 0 to 255 (R9, R10). -/
abbrev Byte := BitVec 8

/-- The 16-bit command word (R9, R70). -/
abbrev CmdWord := BitVec 16

/-- The 32-bit response word (R9, R77). -/
abbrev RspWord := BitVec 32

/-- One event of TRACE (R27): a slot the block has performed. A bit is a Bool, `true` for 1. -/
inductive Slot where
  /-- `Reset(p)`: a reset slot, with the presence answer. -/
  | reset (p : Bool)
  /-- `W(b)`: a write slot, with the bit written. -/
  | w (b : Bool)
  /-- `R(b)`: a read slot, with the bit sampled. -/
  | r (b : Bool)
  deriving DecidableEq, Repr

/-- The slots performed, oldest first (R27). -/
abbrev Trace := List Slot

end Sys2Proof
end

