-- ==== Sys2Proof/Config.lean ====
section
/-! DEFINITION. The parameters of 00_scope.md R8 and the free values: what an implementation fixes and what
the spec leaves open. An `opaque` constant has no body: nothing in Lean can prove a value of it. -/

namespace Sys2Proof.Config

/-- `SP_LEN`: the scratchpad's length in bytes (R8). -/
def spLen : Nat := 9

/-- `T_RSTL`, microseconds: a reset slot drives the line low this long (R8, R88). -/
def tRstl : Nat := 480
/-- `T_PDS`: from release to the presence sample (R8, R88). -/
def tPds : Nat := 70
/-- `T_RSTH_TAIL`: the wait after the presence sample (R8, R88). -/
def tRsthTail : Nat := 410
/-- `T_SLOT`: the length of a write or read slot (R8, R89, R90). -/
def tSlot : Nat := 70
/-- `T_W1L`: write-1 drives low (R8, R89). -/
def tW1l : Nat := 6
/-- `T_W0L`: write-0 drives low (R8, R89). -/
def tW0l : Nat := 60
/-- `T_RL`: read drives low (R8, R90). -/
def tRl : Nat := 6
/-- `T_MSR`: read samples this long after release (R8, R90). -/
def tMsr : Nat := 9

/-- `T_TOL`, the tolerance on every "~" figure; OPEN (R8, D17). Log 10. DESIGN CHOICE, log 15: a whole number
of microseconds; the spec does not say it is whole. Where it applies: log 16. -/
opaque tTol : Nat
/-- `T_REC`, the gap between consecutive slots; OPEN, at least 0 (R91, R245, D17). Log 10. DESIGN CHOICE, log 15:
a whole number of microseconds; the spec does not say it is whole. -/
opaque tRec : Nat
/-- `F_CLK`, a realisation's clock; OPEN, used by no rule (R8, R245, D17). Log 10. DESIGN CHOICE, log 15: a whole
number of hertz; the spec gives neither a unit nor that it is whole. -/
opaque fClk : Nat

/-- The sensor oracle's presence answer (R26): a function of the whole trace, under no law. Log 2. -/
opaque presence : Trace → Bool
/-- The sensor oracle's read-slot answer (R26): a function of the whole trace, under no law. Log 2. -/
opaque readBit : Trace → Bool

/-- The implementation's choice of SP_CHUNK, less one (R8: OPEN, 1..9). Log 3. -/
opaque spChunkChoice : Fin 9
/-- The implementation's choice of POLL_LIMIT, an integer less one (R8: OPEN, `none` or 1..65535). Log 3. -/
opaque pollLimitChoice : Option (Fin 65535)

/-- The two parameters of R8 that the functional rules use, as the arguments a machine is built with. -/
structure Params where
  /-- `SP_CHUNK`: bytes read per sequencer step in RSP (R169). -/
  spChunk : Nat
  /-- `POLL_LIMIT`: `none` (unbounded) or the limit L (R166). -/
  pollLimit : Option Nat
  deriving DecidableEq, Repr

/-- The parameters of the machine that reset describes: uninterpreted, in R8's ranges. Log 3. -/
def chosenParams : Params where
  spChunk := spChunkChoice.val + 1
  pollLimit := pollLimitChoice.map (fun l => l.val + 1)

end Sys2Proof.Config
end

