-- ==== Sys2Proof/Machine/Operands.lean ====
section
/-! DEFINITION. The operand fields of a command word and their legal ranges (30_encoding.md R70, R73, R74), and
the bit order of a byte on the wire (20_memory.md R52). -/

namespace Sys2Proof.Machine

/-- OP, bits 15:12 of a command word (R70). -/
def opField (w : CmdWord) : BitVec 4 := w.extractLsb' 12 4

/-- N, bits 11:8 of a command word (R70, R73). -/
def nField (w : CmdWord) : BitVec 4 := w.extractLsb' 8 4

/-- DATA, bits 7:0 of a command word (R70, R74). -/
def dataField (w : CmdWord) : Byte := w.extractLsb' 0 8

/-- N as a byte count of BUS.RBYTES and CRC.BUF: 1 to SP_LEN (R73). -/
def countLegal (n : BitVec 4) : Bool := decide (1 ≤ n.toNat) && decide (n.toNat ≤ Config.spLen)

/-- N as a byte index of SP.RD: 0 to SP_LEN - 1 (R73). -/
def indexLegal (i : BitVec 4) : Bool := decide (i.toNat < Config.spLen)

/-- `zext_8` of a bit (R10). -/
def zext8 (b : Bool) : Byte := (BitVec.ofBool b).setWidth 8

/-- The bits of a byte in the order of their slots: bit 0 first (R52). -/
def bitsOf (d : Byte) : List Bool := (List.range 8).map (fun k => d.getLsbD k)

/-- POLL_LIMIT is in R8's range: `none`, or an integer from 1 to 65535. -/
def pollLimitInRange (p : Config.Params) : Bool :=
  match p.pollLimit with
  | none => true
  | some l => decide (1 ≤ l) && decide (l ≤ 65535)

/-- SP_CHUNK is in R8's range: 1 to 9. -/
def spChunkInRange (p : Config.Params) : Bool :=
  decide (1 ≤ p.spChunk) && decide (p.spChunk ≤ Config.spLen)

end Sys2Proof.Machine
end

