-- ==== Sys2Proof/Syntax.lean ====
section
/-! DEFINITION. The command set: one constructor per row of spec/opcode_table.json (30_encoding.md R71). -/

namespace Sys2Proof

/-- The fourteen operations, with the operands R73 and R74 decode. The N field stays the 4-bit value of the
word; `Instr.wellFormed` says which values are legal. -/
inductive Instr where
  /-- BUS.RESET (R104). -/
  | busReset
  /-- BUS.WBIT, with the bit DATA[0] (R105). -/
  | busWbit (b : Bool)
  /-- BUS.RBIT (R106). -/
  | busRbit
  /-- BUS.WBYTE, with the byte DATA (R122). -/
  | busWbyte (d : Byte)
  /-- BUS.RBYTE (R123). -/
  | busRbyte
  /-- BUS.RBYTES, with the count N in 1..9 (R124). -/
  | busRbytes (n : BitVec 4)
  /-- SP.RD, with the index N in 0..8 (R125). -/
  | spRd (i : BitVec 4)
  /-- CRC.CLR (R143). -/
  | crcClr
  /-- CRC.UPD, with the byte DATA (R144). -/
  | crcUpd (d : Byte)
  /-- CRC.BUF, with the count N in 1..9 (R145). -/
  | crcBuf (n : BitVec 4)
  /-- TXN.START (R162). -/
  | txnStart
  /-- TXN.STEP (R163). -/
  | txnStep
  /-- TXN.ABORT (R172). -/
  | txnAbort
  /-- TXN.STATUS (R173). -/
  | txnStatus
  deriving DecidableEq, Repr

end Sys2Proof
end

