-- ==== Sys2Proof/WellFormed.lean ====
section
/-! DEFINITION. Which instruction terms are operations of the command set (30_encoding.md R73, R75). -/

namespace Sys2Proof

/-- The operand is in its operation's range (R73); an operand that fills its field is always legal (R74). -/
def Instr.wellFormed : Instr → Bool
  | .busRbytes n => Machine.countLegal n
  | .crcBuf n => Machine.countLegal n
  | .spRd i => Machine.indexLegal i
  | .busReset => true
  | .busWbit _ => true
  | .busRbit => true
  | .busWbyte _ => true
  | .busRbyte => true
  | .crcClr => true
  | .crcUpd _ => true
  | .txnStart => true
  | .txnStep => true
  | .txnAbort => true
  | .txnStatus => true

end Sys2Proof
end

