-- ==== Sys2Proof/Decode.lean ====
section
/-! DEFINITION. The decoder of command words, total on all 65536 of them and rejecting by name (30_encoding.md
R70 to R76), and the encoder from the same tables. -/

namespace Sys2Proof

/-- Why a word is ILLEGAL: the three cases of R75. -/
inductive DecodeError where
  /-- OP = 0x0 or OP = 0xF. -/
  | reservedOp
  /-- A must-be-zero bit of R72 is 1. -/
  | mustBeZero
  /-- N is outside the operation's range of R73. -/
  | operandRange
  deriving DecidableEq, Repr

/-- An operation without operands: N and DATA must be 0 (R72). -/
def decodePlain (w : CmdWord) (i : Instr) : Except DecodeError Instr :=
  if Machine.nField w = 0 ∧ Machine.dataField w = 0 then .ok i else .error .mustBeZero

/-- An operation whose operand is DATA: N must be 0 (R72, R74). -/
def decodeData (w : CmdWord) (mk : Byte → Instr) : Except DecodeError Instr :=
  if Machine.nField w = 0 then .ok (mk (Machine.dataField w)) else .error .mustBeZero

/-- An operation whose operand is N: DATA must be 0 and N in range (R72, R73). -/
def decodeN (w : CmdWord) (legal : BitVec 4 → Bool) (mk : BitVec 4 → Instr) : Except DecodeError Instr :=
  if Machine.dataField w = 0 then
    if legal (Machine.nField w) then .ok (mk (Machine.nField w)) else .error .operandRange
  else .error .mustBeZero

/-- BUS.WBIT: the operand is DATA[0]; N and DATA[7:1] must be 0 (R72, R74). -/
def decodeBit (w : CmdWord) (mk : Bool → Instr) : Except DecodeError Instr :=
  if Machine.nField w = 0 ∧ Machine.dataField w >>> 1 = 0 then .ok (mk ((Machine.dataField w).getLsbD 0))
  else .error .mustBeZero

/-- The operation a command word selects, or why it is ILLEGAL (R71, R75, R76). -/
def decode (w : CmdWord) : Except DecodeError Instr :=
  match (Machine.opField w).toNat with
  | 0x1 => decodePlain w .busReset
  | 0x2 => decodeBit w .busWbit
  | 0x3 => decodePlain w .busRbit
  | 0x4 => decodeData w .busWbyte
  | 0x5 => decodePlain w .busRbyte
  | 0x6 => decodeN w Machine.countLegal .busRbytes
  | 0x7 => decodeN w Machine.indexLegal .spRd
  | 0x8 => decodePlain w .crcClr
  | 0x9 => decodeData w .crcUpd
  | 0xA => decodeN w Machine.countLegal .crcBuf
  | 0xB => decodePlain w .txnStart
  | 0xC => decodePlain w .txnStep
  | 0xD => decodePlain w .txnAbort
  | 0xE => decodePlain w .txnStatus
  | _ => .error .reservedOp

/-- A word from its three fields (R70). -/
def packWord (op n : BitVec 4) (d : Byte) : CmdWord := op ++ n ++ d

/-- The word of an instruction (R71, R72, R94). -/
def encode : Instr → CmdWord
  | .busReset => packWord 0x1 0 0
  | .busWbit b => packWord 0x2 0 (Machine.zext8 b)
  | .busRbit => packWord 0x3 0 0
  | .busWbyte d => packWord 0x4 0 d
  | .busRbyte => packWord 0x5 0 0
  | .busRbytes n => packWord 0x6 n 0
  | .spRd i => packWord 0x7 i 0
  | .crcClr => packWord 0x8 0 0
  | .crcUpd d => packWord 0x9 0 d
  | .crcBuf n => packWord 0xA n 0
  | .txnStart => packWord 0xB 0 0
  | .txnStep => packWord 0xC 0 0
  | .txnAbort => packWord 0xD 0 0
  | .txnStatus => packWord 0xE 0 0

/-- The command word whose bits are `w`, numbered as spec/opcode_table.json numbers them: a command is one
16-bit word (R70), bits above `nbits` zero. -/
def tableWord (nbits w : Nat) : CmdWord := BitVec.ofNat 16 (w % 2 ^ nbits)

/-- The instruction the decoder reads from a row's word, `none` where it refuses. -/
def decodeTableWord (nbits w : Nat) : Option Instr :=
  match decode (tableWord nbits w) with
  | .ok i => some i
  | .error _ => none

end Sys2Proof
end

