-- ==== Sys2Proof/Machine/State.lean ====
section
/-! DEFINITION. The machine's state as plain data (10_state.md R20 to R32), the reasons a step stops, and the
state after reset (R40). -/

namespace Sys2Proof.Machine

/-- The block's side of the open-drain line (R28). -/
inductive LineDrive where
  /-- The block pulls the line low. -/
  | low
  /-- The block does not drive the line. -/
  | released
  deriving DecidableEq, Repr

/-- `TXN_STATE` (R21): seven values, so the never-held 7 cannot arise. -/
inductive TxnState where
  /-- Idle, 0. -/
  | idle
  /-- AwaitingPresenceForConvert, 1. -/
  | apc
  /-- WaitingForConvertDone, 2. -/
  | wcd
  /-- AwaitingPresenceForRead, 3. -/
  | apr
  /-- ReadingScratchpad, 4. -/
  | rsp
  /-- Done, 5. -/
  | done
  /-- Error, 6. -/
  | err
  deriving DecidableEq, Repr

/-- `ERR_VARIANT` (R23). -/
inductive ErrVariant where
  /-- NONE, 0: no error. -/
  | noError
  /-- A, 1: no presence at the reset before CONVERT-T. -/
  | a
  /-- B, 2: no presence at the reset before READ-SCRATCHPAD. -/
  | b
  /-- C, 3: the conversion poll limit was reached. -/
  | c
  deriving DecidableEq, Repr

/-- `STATUS` of a response (R79, R201). -/
inductive Status where
  /-- 0: the command was performed. -/
  | ok
  /-- 1: the word is illegal. -/
  | illegal
  /-- 2: the command needs the bus, or starts a transaction, while one is in flight. -/
  | busy
  deriving DecidableEq, Repr

/-- What stands on the block's input pins at one transition (R38): the reset pin, and the command port. Logs 1, 8. -/
structure Input where
  /-- RST_N is asserted (R230). -/
  rstAsserted : Bool
  /-- The command word on the command port, if there is one (R70). -/
  command : Option CmdWord
  deriving DecidableEq, Repr

/-- The scratchpad buffer's storage: (address, byte), addresses strictly rising, only bytes written since
reset listed. An address that is not listed has no value (R30). Log 5. -/
abbrev Memory := List Host.Cell

/-- The canonical form: addresses strictly rising and inside SP[0..8] (R30, R50). Nothing is the value of an
unlisted address, so every list of this form lists only what was written. -/
abbrev Memory.wf (m : Memory) : Prop :=
  m.Pairwise (fun x y => x.1 < y.1) ∧ ∀ c ∈ m, c.1 < Config.spLen

/-- The machine (R20), its model-only bookkeeping, and its environment's data. -/
structure State where
  /-- `LINE_DRIVE` (R28, R29). -/
  lineDrive : LineDrive
  /-- `TXN_STATE` (R21). -/
  txnState : TxnState
  /-- `ERR_VARIANT` (R23). -/
  errVariant : ErrVariant
  /-- `POLL_CNT`, saturating (R24). -/
  pollCnt : BitVec 16
  /-- `SP_IDX`, 0 to 9 (R25). -/
  spIdx : BitVec 4
  /-- `SP[0..8]` and `SP_W[0..8]`: the bytes written since reset (R30). -/
  sp : Memory
  /-- `TEMP_HI` (R31). -/
  tempHi : Byte
  /-- `TEMP_LO` (R31). -/
  tempLo : Byte
  /-- `CRC_ACC` (R32). -/
  crcAcc : Byte
  /-- `TRACE`: the slots performed, oldest first (R27). -/
  trace : Trace
  /-- The response words produced, oldest first (R38, R77). The model's own field, log 6. -/
  responses : List RspWord
  /-- What the ports will carry at the coming transitions, next first (R38). The model's own field, log 1. -/
  inputs : List Input
  /-- The sensor's coming presence answers, next first (R26). The model's own field, log 2. -/
  presenceIn : List Bool
  /-- The sensor's coming read-slot answers, next first (R26). The model's own field, log 2. -/
  bitIn : List Bool
  /-- The machine's parameters, which no step changes (R8). The model's own field, log 3. -/
  params : Config.Params
  deriving DecidableEq, Repr

/-- Why the model stops with a fault: exactly one reason (R205). -/
inductive Fault where
  /-- An operation read a scratchpad byte not written since reset (R30). Raised by SP.RD and CRC.BUF, and by
  TXN.STEP only in states no run reaches. Safe: the hardware goes on with an unspecified byte. -/
  | unwrittenScratchpadRead
  deriving DecidableEq, Repr

/-- Why the model refuses: a configuration outside R8 (R205, 93 U15), or an instruction without a meaning. -/
inductive Refusal where
  /-- An instruction that has no meaning in the model yet. No arm of `exec` answers it. Safe. -/
  | notModelled (mnemonic : String)
  /-- TXN.STEP in WCD on a machine whose POLL_LIMIT is outside 1..65535 (R8, R205, U15). Safe: no such machine
  is described. -/
  | pollLimitOutOfRange
  /-- TXN.STEP in RSP on a machine whose SP_CHUNK is outside 1..9 (R8, R205, U15). Safe: no such machine is
  described. -/
  | spChunkOutOfRange
  deriving DecidableEq, Repr

/-- The machine right after power-up (R40, R230, R232): nothing on its ports, nothing yet on the bus. The last
six fields are the model's own (logs 1, 2, 3, 6, 11). -/
def State.reset : State where
  lineDrive := .released
  txnState := .idle
  errVariant := .noError
  pollCnt := 0
  spIdx := 0
  sp := []
  tempHi := 0
  tempLo := 0
  crcAcc := 0
  trace := []
  responses := []
  inputs := []
  presenceIn := []
  bitIn := []
  params := Config.chosenParams

end Sys2Proof.Machine
end

