-- ==== Sys2Proof/Machine/Flags.lean ====
section
/-! DEFINITION. The per-operation indications and the response word that carries them (10_state.md R35;
30_encoding.md R77 to R83), and the encodings of the state fields it reports (R21, R23). -/

namespace Sys2Proof.Machine

/-- `InFlight(s)` (R15, R22). -/
def TxnState.inFlight : TxnState → Bool
  | .apc => true
  | .wcd => true
  | .apr => true
  | .rsp => true
  | .idle => false
  | .done => false
  | .err => false

/-- The transaction is over and its result shows: DONE or ERR (R31, R174). -/
def TxnState.hasResult : TxnState → Bool
  | .done => true
  | .err => true
  | .idle => false
  | .apc => false
  | .wcd => false
  | .apr => false
  | .rsp => false

/-- The value of TXN_STATE (R21). -/
def TxnState.code : TxnState → BitVec 3
  | .idle => 0
  | .apc => 1
  | .wcd => 2
  | .apr => 3
  | .rsp => 4
  | .done => 5
  | .err => 6

/-- The value of ERR_VARIANT (R23). -/
def ErrVariant.code : ErrVariant → BitVec 2
  | .noError => 0
  | .a => 1
  | .b => 2
  | .c => 3

/-- The value of STATUS (R79). -/
def Status.code : Status → BitVec 2
  | .ok => 0
  | .illegal => 1
  | .busy => 2

/-- The fields a command gives its response (R13, R77); a field not given is 0 (R78). -/
structure RspFields where
  /-- STATUS (R79). -/
  status : Status := .ok
  /-- PRESENCE (R81). -/
  presence : Bool := false
  /-- DONE (R82). -/
  done : Bool := false
  /-- DATA1 (R78). -/
  data1 : Byte := 0
  /-- DATA0 (R78). -/
  data0 : Byte := 0
  deriving DecidableEq, Repr

/-- The response word, by R83's concatenation: STATUS, PRESENCE, DONE, ERR_VARIANT, 0, TXN_STATE, DATA1,
DATA0, extended with zeros. -/
def rspWord (f : RspFields) (ts : TxnState) (ev : ErrVariant) : RspWord :=
  0#6 ++ f.status.code ++ BitVec.ofBool f.presence ++ BitVec.ofBool f.done ++ ev.code ++
    0#1 ++ ts.code ++ f.data1 ++ f.data0

/-- DATA0 of a response word, bits 7:0 (R77). -/
def rspData0 (w : RspWord) : Byte := w.extractLsb' 0 8
/-- DATA1 of a response word, bits 15:8 (R77). -/
def rspData1 (w : RspWord) : Byte := w.extractLsb' 8 8
/-- TXN_STATE of a response word, bits 18:16 (R77). -/
def rspTxnState (w : RspWord) : BitVec 3 := w.extractLsb' 16 3
/-- ERR_VARIANT of a response word, bits 21:20 (R77). -/
def rspErrVariant (w : RspWord) : BitVec 2 := w.extractLsb' 20 2
/-- DONE of a response word, bit 22 (R77). -/
def rspDone (w : RspWord) : Bool := w.getLsbD 22
/-- PRESENCE of a response word, bit 23 (R77). -/
def rspPresence (w : RspWord) : Bool := w.getLsbD 23
/-- STATUS of a response word, bits 25:24 (R77). -/
def rspStatus (w : RspWord) : BitVec 2 := w.extractLsb' 24 2

end Sys2Proof.Machine
end

