-- ==== Sys2Proof/Machine/Waveform.lean ====
section
/-! DEFINITION. The wire encoding of a slot (30_encoding.md R88 to R91), the level of the line (10_state.md R28)
and the durations that follow (70_reset_and_hazards.md R243). Times are nominal microseconds; the
functional step reads only which way the line is driven, never a time (R18). Log 10. -/

namespace Sys2Proof.Machine

/-- How the spec gives a length in a slot. -/
inductive Given where
  /-- As a figure without a "~": met exactly (R8). -/
  | exact
  /-- As a figure with a "~": met within T_TOL (R8). -/
  | approx
  /-- As what remains of the slot: bounded by the slot's total only. DESIGN CHOICE, log 16. -/
  | rest
  deriving DecidableEq, Repr

/-- A stretch of a slot in which the block's drive of the line is constant. -/
structure Phase where
  /-- What the block does to the line. -/
  drive : LineDrive
  /-- Its nominal length in microseconds. -/
  us : Nat
  /-- How the spec gives that length (R8, R88 to R90). -/
  given : Given
  deriving DecidableEq, Repr

/-- The waveform of a slot: reset R88, write R89, read R90. A sample point is the end of a phase. -/
def slotPhases : Slot → List Phase
  | .reset _ =>
    [⟨.low, Config.tRstl, .exact⟩, ⟨.released, Config.tPds, .exact⟩, ⟨.released, Config.tRsthTail, .exact⟩]
  | .w true => [⟨.low, Config.tW1l, .approx⟩, ⟨.released, Config.tSlot - Config.tW1l, .rest⟩]
  | .w false => [⟨.low, Config.tW0l, .approx⟩, ⟨.released, Config.tSlot - Config.tW0l, .rest⟩]
  | .r _ =>
    [⟨.low, Config.tRl, .approx⟩, ⟨.released, Config.tMsr, .approx⟩,
      ⟨.released, Config.tSlot - Config.tRl - Config.tMsr, .rest⟩]

/-- How the spec gives a slot's total: 960 for a reset (R88) and 70 for a write (R8, R89) without a "~". DESIGN
CHOICE, log 16: a read's 70 is taken as approximate, by R90's "pad to ~70µs total", where R8 has no "~". -/
def slotTotalGiven : Slot → Given
  | .reset _ => .exact
  | .w _ => .exact
  | .r _ => .approx

/-- When the block samples the line, from the start of the slot; a write slot does not sample (R88 to R90). -/
def sampleAtUs : Slot → Option Nat
  | .reset _ => some (Config.tRstl + Config.tPds)
  | .w _ => none
  | .r _ => some (Config.tRl + Config.tMsr)

/-- The level at the sample point that the event records, 1 for high (R28): "low ⇒ presence" in a reset slot,
the bit itself in a read slot. -/
def sampledLevel : Slot → Option Bool
  | .reset p => some (!p)
  | .w _ => none
  | .r b => some b

/-- The level on the wire, 1 for high: low when the block drives it low or any device pulls it low, else high
through the pull-up (R28, R218). -/
def wireLevel (drive : LineDrive) (devicesLow : List Bool) : Bool :=
  match drive with
  | .low => false
  | .released => !devicesLow.any id

/-- `DQ_OE`, the drive-low enable of the bus port, 1 = drive low (R38). -/
def dqOe (s : State) : Bool :=
  match s.lineDrive with
  | .low => true
  | .released => false

/-- The nominal length of a slot: the sum of its phases (R88 takes 960 for a reset, C1). -/
def slotUs (e : Slot) : Nat := ((slotPhases e).map (fun p => p.us)).sum

/-- The nominal bus time of a run of slots, with a gap T_REC between consecutive slots (R91, R243). -/
def busTimeUs (es : Trace) : Nat := (es.map slotUs).sum + (es.length - 1) * Config.tRec

/-- A measured length meets a nominal one: equal where it is given exactly, within T_TOL where it is given with a
"~" (R8), unbounded where it is the rest of a slot. DESIGN CHOICE, log 15: measured in whole microseconds. -/
def lengthMeets (g : Given) (nominal measured : Nat) : Bool :=
  match g with
  | .exact => decide (measured = nominal)
  | .approx => decide (measured ≤ nominal + Config.tTol) && decide (nominal ≤ measured + Config.tTol)
  | .rest => true

/-- A realisation's measured phases are the waveform of a slot: each phase meets its figure, and their sum meets
the slot's total (R8, R88 to R90). DESIGN CHOICE, log 16: where the open T_TOL applies. -/
def waveformMeets (e : Slot) (measured : List Nat) : Bool :=
  decide (measured.length = (slotPhases e).length) &&
    (List.zipWith (fun p m => lengthMeets p.given p.us m) (slotPhases e) measured).all id &&
    lengthMeets (slotTotalGiven e) (slotUs e) measured.sum

end Sys2Proof.Machine
end

