-- ==== Sys2Proof/Machine/Ops.lean ====
section
/-! DEFINITION. The named operations every meaning is written over: one update per register, the scratchpad's
storage, the slot and byte primitives (40_bus_primitives.md R100 to R103; 41_byte_transfer.md R120, R121,
R126), responding, rejecting and entering an error (00_scope.md R13; R168, R200), and the block reset (R230). -/

namespace Sys2Proof.Machine

/-! ### One update per register -/

/-- `LINE_DRIVE <- d`. -/
def State.setLine (d : LineDrive) (s : State) : State := { s with lineDrive := d }
/-- `TXN_STATE <- t`. -/
def State.setTxn (t : TxnState) (s : State) : State := { s with txnState := t }
/-- `ERR_VARIANT <- v`. -/
def State.setErr (v : ErrVariant) (s : State) : State := { s with errVariant := v }
/-- `POLL_CNT <- n`. -/
def State.setPollCnt (n : BitVec 16) (s : State) : State := { s with pollCnt := n }
/-- `SP_IDX <- i`. -/
def State.setSpIdx (i : BitVec 4) (s : State) : State := { s with spIdx := i }
/-- The scratchpad's storage replaced. -/
def State.setSp (m : Memory) (s : State) : State := { s with sp := m }
/-- `(TEMP_HI, TEMP_LO) <- (hi, lo)`. -/
def State.setTemp (t : Byte × Byte) (s : State) : State := { s with tempHi := t.1, tempLo := t.2 }
/-- `CRC_ACC <- c`. -/
def State.setCrc (c : Byte) (s : State) : State := { s with crcAcc := c }
/-- `TRACE <- TRACE ++ [e]` (R27). -/
def State.appendSlot (e : Slot) (s : State) : State := { s with trace := s.trace ++ [e] }
/-- A response word leaves on the response port (R38). -/
def State.emit (w : RspWord) (s : State) : State := { s with responses := s.responses ++ [w] }
/-- The sensor has given its next presence answer. -/
def State.popPresence (s : State) : State := { s with presenceIn := s.presenceIn.tail }
/-- The sensor has given its next read-slot answer. -/
def State.popBit (s : State) : State := { s with bitIn := s.bitIn.tail }
/-- The transition takes what stands on the ports. -/
def State.popInput (s : State) : State := { s with inputs := s.inputs.tail }

/-! ### The scratchpad buffer SP[0..8] with its marks SP_W[0..8] (10_state.md R30) -/

/-- The byte at an address, `none` where nothing was written since reset (R30). -/
def Memory.read (m : Memory) (a : Nat) : Option Byte :=
  match m with
  | [] => none
  | c :: rest => if c.1 = a then some c.2 else Memory.read rest a

/-- Write one byte, keeping the canonical form. -/
def Memory.write (m : Memory) (a : Nat) (v : Byte) : Memory :=
  match m with
  | [] => [(a, v)]
  | c :: rest =>
    if c.1 < a then c :: Memory.write rest a v
    else if c.1 = a then (a, v) :: rest
    else (a, v) :: c :: rest

/-- `SP[i]`, `none` while SP_W[i] is false (R11, R30). -/
def State.spRead (s : State) (i : Nat) : Option Byte := s.sp.read i

/-- `SP_W[i]`: SP[i] has been written since reset (R30). -/
def State.spW (s : State) (i : Nat) : Bool := (s.spRead i).isSome

/-- `SP[i] <- v; SP_W[i] <- true` (R11, R30). -/
def State.spWrite (i : Nat) (v : Byte) (s : State) : State := s.setSp (s.sp.write i v)

/-- `[SP[0], ..., SP[n-1]]`, `none` if one of them is unwritten (R145). -/
def State.spPrefix (s : State) : Nat → Option (List Byte)
  | 0 => some []
  | n + 1 =>
    match s.spPrefix n, s.spRead n with
    | some l, some v => some (l ++ [v])
    | _, _ => none

/-! ### The sensor oracle (10_state.md R26, log 2) -/

/-- `presence(TRACE)`: the answer at the sample point of a reset slot. -/
def State.presenceAnswer (s : State) : Bool :=
  match s.presenceIn with
  | p :: _ => p
  | [] => Config.presence s.trace

/-- `bit(TRACE)`: the answer at the sample point of a read slot. -/
def State.bitAnswer (s : State) : Bool :=
  match s.bitIn with
  | b :: _ => b
  | [] => Config.readBit s.trace

/-! ### Slots (40_bus_primitives.md R100 to R103) -/

/-- Put a slot on the wire: LINE_DRIVE follows the slot's waveform phase by phase (R88 to R90), then TRACE gains
the one event (R12, R27). -/
def State.perform (e : Slot) (s : State) : State :=
  ((slotPhases e).foldl (fun t p => t.setLine p.drive) s).appendSlot e

/-- `BusReset()` (R100): the presence answer, and the state after the slot. -/
def State.busReset (s : State) : Bool × State :=
  (s.presenceAnswer, (s.perform (.reset s.presenceAnswer)).popPresence)

/-- `SlotWrite(b)` (R101). -/
def State.slotWrite (b : Bool) (s : State) : State := s.perform (.w b)

/-- `SlotRead()` (R102): the sampled bit, and the state after the slot. -/
def State.slotRead (s : State) : Bool × State :=
  (s.bitAnswer, (s.perform (.r s.bitAnswer)).popBit)

/-! ### Bytes (41_byte_transfer.md R120, R121, R126) -/

/-- `WriteByte(d)`: eight write slots, bit 0 first (R120). -/
def State.writeByte (d : Byte) (s : State) : State :=
  (bitsOf d).foldl (fun t b => t.slotWrite b) s

/-- R121's loop from slot `k` with `fuel` slots to go: each bit read is set at its place in `v`. -/
def State.readByteFrom (k : Nat) (v : Byte) (s : State) : Nat → Byte × State
  | 0 => (v, s)
  | fuel + 1 => s.slotRead.2.readByteFrom (k + 1) (v ||| (zext8 s.slotRead.1 <<< k)) fuel

/-- `ReadByte()`: eight read slots, the k-th bit read becomes bit k (R121). -/
def State.readByte (s : State) : Byte × State := s.readByteFrom 0 0 8

/-- `ReadBytes(n)` into SP from address `a`: n ReadByte calls in order, each byte stored as it comes
(R126, and the loops of R124 and R170). -/
def State.readBytesInto (a : Nat) (s : State) : Nat → State
  | 0 => s
  | n + 1 => (s.readByte.2.spWrite a s.readByte.1).readBytesInto (a + 1) n

/-! ### Ending an operation (00_scope.md R13) -/

/-- `respond(status, fields)`: the response is made from the state after every write of the operation (R13, C7). -/
def State.respond (f : RspFields) (s : State) : State := s.emit (rspWord f s.txnState s.errVariant)

/-- `reject(S)`: no change but the response (R200). This is the block's form of raising an exception: there is
no trap to take (R206) and nothing to return from (R207). -/
def State.reject (st : Status) (s : State) : State := s.respond { status := st }

/-- The sentinel of an error variant (R23, R168). NONE has none; its row is never used. -/
def sentinel : ErrVariant → Byte × Byte
  | .a => (0xFF, 0xFF)
  | .b => (0xFF, 0xFE)
  | .c => (0xFF, 0xFD)
  | .noError => (0, 0)

/-- `EnterError(v)` (R168): the error outcome of a transaction, an ordinary state and an accepted command. -/
def State.enterError (v : ErrVariant) (s : State) : State :=
  let t := ((s.setErr v).setTemp (sentinel v)).setTxn .err
  t.respond { done := true, data1 := t.tempHi, data0 := t.tempLo }

/-- The in-flight gating of the seven commands of R201 (R107, R162, R202): BUSY while a transaction is in flight. -/
def State.gated (s : State) (op : State → State) : State :=
  if s.txnState.inFlight then s.reject .busy else op s

/-! ### The block's inputs (10_state.md R38) -/

/-- Block reset (R230): every state element at its reset value (R40). TRACE is a history and is not cleared
(R27); the response history and the environment's data are not the block's. A command on the port at the same
transition is abandoned with no response (R210). Log 8. -/
def State.blockReset (s : State) : State :=
  { State.reset with
    trace := s.trace
    responses := s.responses
    inputs := s.inputs
    presenceIn := s.presenceIn
    bitIn := s.bitIn
    params := s.params }

/-- What one transition has to do. -/
inductive Event where
  /-- Nothing stands on the ports: the block does nothing (R160, R246). -/
  | quiet
  /-- RST_N is asserted (R230). -/
  | blockReset
  /-- A command word is delivered (R70). -/
  | word (w : CmdWord)
  deriving DecidableEq, Repr

/-- What stands on the ports now; RST_N has priority over a command (R210). -/
def State.event (s : State) : Event :=
  match s.inputs with
  | [] => .quiet
  | i :: _ =>
    if i.rstAsserted then .blockReset
    else
      match i.command with
      | none => .quiet
      | some w => .word w

/-- A command word stands on the command port at the next transition. -/
def State.offerWord (s : State) (w : CmdWord) : State :=
  { s with inputs := { rstAsserted := false, command := some w } :: s.inputs }

end Sys2Proof.Machine
end

