-- ==== Sys2Proof/Machine/BusPrimitives.lean ====
section
/-! DEFINITION. BUS.RESET, BUS.WBIT, BUS.RBIT (40_bus_primitives.md R104 to R106). -/

namespace Sys2Proof.Machine

/-- BUS.RESET (R104): one reset slot; PRESENCE in the response. No presence is a normal outcome. -/
def execBusReset (s : State) : Host.Outcome State Fault Refusal :=
  .next (s.gated fun s => s.busReset.2.respond { presence := s.busReset.1 })

/-- BUS.WBIT (R105): one write slot. -/
def execBusWbit (b : Bool) (s : State) : Host.Outcome State Fault Refusal :=
  .next (s.gated fun s => (s.slotWrite b).respond {})

/-- BUS.RBIT (R106): one read slot; the bit in DATA0. -/
def execBusRbit (s : State) : Host.Outcome State Fault Refusal :=
  .next (s.gated fun s => s.slotRead.2.respond { data0 := zext8 s.slotRead.1 })

end Sys2Proof.Machine
end

