-- ==== Sys2Proof/Machine/ByteTransfer.lean ====
section
/-! DEFINITION. BUS.WBYTE, BUS.RBYTE, BUS.RBYTES, SP.RD (41_byte_transfer.md R122 to R125). -/

namespace Sys2Proof.Machine

/-- BUS.WBYTE (R122): eight write slots. -/
def execBusWbyte (d : Byte) (s : State) : Host.Outcome State Fault Refusal :=
  .next (s.gated fun s => (s.writeByte d).respond {})

/-- BUS.RBYTE (R123): eight read slots; the byte in DATA0, SP not written. -/
def execBusRbyte (s : State) : Host.Outcome State Fault Refusal :=
  .next (s.gated fun s => s.readByte.2.respond { data0 := s.readByte.1 })

/-- BUS.RBYTES (R124): n bytes into SP[0..n-1]. A count outside 1..9 is ILLEGAL before any gating (R75, R202). -/
def execBusRbytes (n : BitVec 4) (s : State) : Host.Outcome State Fault Refusal :=
  .next (if countLegal n then s.gated fun s => (s.readBytesInto 0 n.toNat).respond {} else s.reject .illegal)

/-- SP.RD (R125): SP[i] in DATA0, in every TXN_STATE; the model's fault on a byte not written since reset (R30).
An index outside 0..8 is ILLEGAL (R75). -/
def execSpRd (i : BitVec 4) (s : State) : Host.Outcome State Fault Refusal :=
  if indexLegal i then
    match s.spRead i.toNat with
    | some v => .next (s.respond { data0 := v })
    | none => .fault .unwrittenScratchpadRead
  else .next (s.reject .illegal)

end Sys2Proof.Machine
end

