-- ==== Sys2Proof/Machine/Crc8.lean ====
section
/-! DEFINITION. The Dallas/Maxim CRC-8 and its commands CRC.CLR, CRC.UPD, CRC.BUF (42_crc8.md R140 to R145). -/

namespace Sys2Proof.Machine

/-- R140's loop, `fuel` iterations to go: mix the two low bits, shift, and apply 0x8C where the mix is 1. -/
def crc8Loop (c d : Byte) : Nat → Byte
  | 0 => c
  | fuel + 1 =>
    crc8Loop (if (c ^^^ d) &&& 1 = 1 then (c >>> 1) ^^^ 0x8C else c >>> 1) (d >>> 1) fuel

/-- `crc8_step(c, d)` (R140): the state after byte d has been shifted in, bit 0 first. -/
def crc8Step (c d : Byte) : Byte := crc8Loop c d 8

/-- `crc8(list)` (R141): folds `crc8Step` from 0x00, with no final step. -/
def crc8 (l : List Byte) : Byte := l.foldl crc8Step 0

/-- CRC.CLR (R143). -/
def execCrcClr (s : State) : Host.Outcome State Fault Refusal :=
  let t := s.setCrc 0
  .next (t.respond { data0 := t.crcAcc })

/-- CRC.UPD (R144): DATA0 is the new CRC_ACC. -/
def execCrcUpd (d : Byte) (s : State) : Host.Outcome State Fault Refusal :=
  let t := s.setCrc (crc8Step s.crcAcc d)
  .next (t.respond { data0 := t.crcAcc })

/-- CRC.BUF (R145): CRC_ACC becomes the CRC of SP[0..n-1], whatever it was; the model's fault if one of them is
unwritten (R30). A count outside 1..9 is ILLEGAL (R75). Never BUSY. -/
def execCrcBuf (n : BitVec 4) (s : State) : Host.Outcome State Fault Refusal :=
  if countLegal n then
    match s.spPrefix n.toNat with
    | some l =>
      let t := s.setCrc (crc8 l)
      .next (t.respond { data0 := t.crcAcc })
    | none => .fault .unwrittenScratchpadRead
  else .next (s.reject .illegal)

end Sys2Proof.Machine
end

