-- ==== Sys2Proof/Machine/ThermalTransaction.lean ====
section
/-! DEFINITION. The thermal-transaction sequencer: TXN.START, TXN.STEP, TXN.ABORT, TXN.STATUS
(43_thermal_transaction.md R160 to R180). -/

namespace Sys2Proof.Machine

/-- SKIP-ROM (R84). -/
def cmdSkipRom : Byte := 0xCC
/-- CONVERT-T (R84). -/
def cmdConvertT : Byte := 0x44
/-- READ-SCRATCHPAD (R84). -/
def cmdReadScratchpad : Byte := 0xBE

/-- `temp_field(b0, b1)` (R161), as (hi, lo): the source's byte-exact shifts, truncated to 8 bits. -/
def tempField (b0 b1 : Byte) : Byte × Byte := ((b1 <<< 4) ||| (b0 >>> 4), b0 <<< 4)

/-- TXN.START (R162): to APC, passing through IDLE from DONE and ERR. BUSY while in flight (R178). -/
def execTxnStart (s : State) : Host.Outcome State Fault Refusal :=
  .next (s.gated fun s => ((((s.setTxn .apc).setErr .noError).setPollCnt 0).setSpIdx 0).respond {})

/-- TXN.STEP in IDLE, DONE, ERR (R163, R174): no slot, no change. -/
def State.stepQuiet (s : State) : State := s.respond {}

/-- TXN.STEP in APC (R164): reset-await before convert. -/
def State.stepApc (s : State) : State :=
  if s.busReset.1 then
    ((((s.busReset.2.writeByte cmdSkipRom).writeByte cmdConvertT).setPollCnt 0).setTxn .wcd).respond
      { presence := true }
  else s.busReset.2.enterError .a

/-- The busy count after one more busy poll, saturating at 65535 (R24, R166). -/
def pollCntNext (n : BitVec 16) : BitVec 16 := BitVec.ofNat 16 (min (n.toNat + 1) 65535)

/-- The poll limit is an integer and this busy count reaches it (R166). -/
def pollLimitReached (p : Config.Params) (n : BitVec 16) : Bool :=
  match p.pollLimit with
  | none => false
  | some l => decide (l ≤ n.toNat)

/-- TXN.STEP in WCD: one read slot; released is R165, still busy is R166. -/
def State.stepWcd (s : State) : State :=
  if s.slotRead.1 then (s.slotRead.2.setTxn .apr).respond {}
  else
    let n := pollCntNext s.pollCnt
    let t := s.slotRead.2.setPollCnt n
    if pollLimitReached s.params n then t.enterError .c else t.respond {}

/-- TXN.STEP in APR (R167): reset-await before read. -/
def State.stepApr (s : State) : State :=
  if s.busReset.1 then
    ((((s.busReset.2.writeByte cmdSkipRom).writeByte cmdReadScratchpad).setSpIdx 0).setTxn .rsp).respond
      { presence := true }
  else s.busReset.2.enterError .b

/-- How many bytes one RSP step reads: `min(SP_CHUNK, 9 - SP_IDX)` (R169). -/
def State.chunk (s : State) : Nat := min s.params.spChunk (Config.spLen - s.spIdx.toNat)

/-- The state after an RSP step's reads and SP_IDX's advance, before its "then" (R170). -/
def State.rspAfterReads (s : State) : State :=
  (s.readBytesInto s.spIdx.toNat s.chunk).setSpIdx (BitVec.ofNat 4 (s.spIdx.toNat + s.chunk))

/-- TXN.STEP in RSP (R170): read a chunk; on the ninth byte compute the result from SP[0] and SP[1] and enter
DONE. The fault is R30's for an unwritten SP[0] or SP[1], which no run reaches (R205). -/
def State.stepRsp (s : State) : Host.Outcome State Fault Refusal :=
  let t := s.rspAfterReads
  if t.spIdx = 9 then
    match t.spRead 0, t.spRead 1 with
    | some b0, some b1 =>
      let u := (t.setTemp (tempField b0 b1)).setTxn .done
      .next (u.respond { done := true, data1 := u.tempHi, data0 := u.tempLo })
    | _, _ => .fault .unwrittenScratchpadRead
  else .next (t.respond {})

/-- TXN.STEP (R163): exactly one state's action. A parameter outside R8's range is refused by the two arms that
use it (R205, 93 U15). -/
def execTxnStep (s : State) : Host.Outcome State Fault Refusal :=
  match s.txnState with
  | .idle => .next s.stepQuiet
  | .done => .next s.stepQuiet
  | .err => .next s.stepQuiet
  | .apc => .next s.stepApc
  | .wcd => if pollLimitInRange s.params then .next s.stepWcd else .refused .pollLimitOutOfRange
  | .apr => .next s.stepApr
  | .rsp => if spChunkInRange s.params then s.stepRsp else .refused .spChunkOutOfRange

/-- TXN.ABORT (R172): to IDLE from every state; SP, TEMP and CRC_ACC stay. Never BUSY. -/
def execTxnAbort (s : State) : Host.Outcome State Fault Refusal :=
  .next (((((s.setTxn .idle).setErr .noError).setPollCnt 0).setSpIdx 0).respond {})

/-- TXN.STATUS (R173): the result shows in DONE and ERR only; nothing changes. Never BUSY. -/
def execTxnStatus (s : State) : Host.Outcome State Fault Refusal :=
  .next (s.respond (if s.txnState.hasResult then { data1 := s.tempHi, data0 := s.tempLo } else {}))

end Sys2Proof.Machine
end

