-- ==== Sys2Proof/Machine/Dispatch.lean ====
section
/-! DEFINITION. One arm per constructor of Instr (30_encoding.md R71). -/

namespace Sys2Proof.Machine

def exec (i : Instr) (s : State) : Host.Outcome State Fault Refusal :=
  match i with
  | .busReset => Sys2Proof.Machine.execBusReset s
  | .busWbit b => Sys2Proof.Machine.execBusWbit b s
  | .busRbit => Sys2Proof.Machine.execBusRbit s
  | .busWbyte d => Sys2Proof.Machine.execBusWbyte d s
  | .busRbyte => Sys2Proof.Machine.execBusRbyte s
  | .busRbytes n => Sys2Proof.Machine.execBusRbytes n s
  | .spRd k => Sys2Proof.Machine.execSpRd k s
  | .crcClr => Sys2Proof.Machine.execCrcClr s
  | .crcUpd d => Sys2Proof.Machine.execCrcUpd d s
  | .crcBuf n => Sys2Proof.Machine.execCrcBuf n s
  | .txnStart => Sys2Proof.Machine.execTxnStart s
  | .txnStep => Sys2Proof.Machine.execTxnStep s
  | .txnAbort => Sys2Proof.Machine.execTxnAbort s
  | .txnStatus => Sys2Proof.Machine.execTxnStatus s

end Sys2Proof.Machine
end

