-- ==== Sys2Proof/Machine/Step.lean ====
section
/-! DEFINITION. One transition of the block (00_scope.md R18): one command, a block reset, or nothing. -/

namespace Sys2Proof.Machine

/-- One transition. The ports' present input is taken; a block reset has priority (R210); a word the decoder
refuses is rejected with ILLEGAL (R75, R200, R202); with nothing on the ports nothing changes (R160). -/
def step (s : State) : Host.Outcome State Fault Refusal :=
  match s.event with
  | .quiet => .next s.popInput
  | .blockReset => .next s.popInput.blockReset
  | .word w =>
    match decode w with
    | .ok i => exec i s.popInput
    | .error _ => .next (s.popInput.reject .illegal)

/-- The command word of a table row stands on the command port, ahead of every other input (log 1). -/
def State.withFetchWord (s : State) (nbits w : Nat) : State := s.offerWord (tableWord nbits w)

end Sys2Proof.Machine
end

