-- ==== Sys2Proof/Machine/Asm.lean ====
section
/-! DEFINITION. The assembler of 30_encoding.md R92 and the pseudo-instructions of R93: a second spelling of
command words, not a behaviour of the block. Text is a list of characters. Log 14. -/

namespace Sys2Proof.Machine

/-- Why the assembler refuses a line (R92). -/
inductive AsmError where
  /-- The first word of the line is none of the names of R71 and R93. -/
  | unknownMnemonic
  /-- The operation takes an operand and the line has none. -/
  | missingOperand
  /-- The line has more operands than the operation takes. -/
  | extraOperand
  /-- The operand is neither decimal digits nor '0x' and hexadecimal digits. -/
  | badNumber
  /-- The operand is outside its operation's range. -/
  | operandOutOfRange
  deriving DecidableEq, Repr

/-- How a mnemonic's operand is written (R92). -/
inductive AsmForm where
  /-- No operand. -/
  | plain (i : Instr)
  /-- A bit, 0 or 1. -/
  | bit
  /-- A byte, 0 to 255. -/
  | byte (mk : Byte → Instr)
  /-- A count, 1 to 9. -/
  | count (mk : BitVec 4 → Instr)
  /-- An index, 0 to 8. -/
  | index (mk : BitVec 4 → Instr)

/-- The fourteen names of R71. -/
def asmNames : List (List Char × AsmForm) :=
  [
    (['B', 'U', 'S', '.', 'R', 'E', 'S', 'E', 'T'], .plain .busReset),
    (['B', 'U', 'S', '.', 'W', 'B', 'I', 'T'], .bit),
    (['B', 'U', 'S', '.', 'R', 'B', 'I', 'T'], .plain .busRbit),
    (['B', 'U', 'S', '.', 'W', 'B', 'Y', 'T', 'E'], .byte .busWbyte),
    (['B', 'U', 'S', '.', 'R', 'B', 'Y', 'T', 'E'], .plain .busRbyte),
    (['B', 'U', 'S', '.', 'R', 'B', 'Y', 'T', 'E', 'S'], .count .busRbytes),
    (['S', 'P', '.', 'R', 'D'], .index .spRd),
    (['C', 'R', 'C', '.', 'C', 'L', 'R'], .plain .crcClr),
    (['C', 'R', 'C', '.', 'U', 'P', 'D'], .byte .crcUpd),
    (['C', 'R', 'C', '.', 'B', 'U', 'F'], .count .crcBuf),
    (['T', 'X', 'N', '.', 'S', 'T', 'A', 'R', 'T'], .plain .txnStart),
    (['T', 'X', 'N', '.', 'S', 'T', 'E', 'P'], .plain .txnStep),
    (['T', 'X', 'N', '.', 'A', 'B', 'O', 'R', 'T'], .plain .txnAbort),
    (['T', 'X', 'N', '.', 'S', 'T', 'A', 'T', 'U', 'S'], .plain .txnStatus)]

/-- The pseudo-instructions of R93. -/
def asmPseudo : List (List Char × AsmForm) :=
  [
    (['B', 'U', 'S', '.', 'S', 'K', 'I', 'P', 'R', 'O', 'M'], .plain (.busWbyte 0xCC)),
    (['B', 'U', 'S', '.', 'C', 'O', 'N', 'V', 'E', 'R', 'T'], .plain (.busWbyte 0x44)),
    (['B', 'U', 'S', '.', 'R', 'E', 'A', 'D', 'S', 'P'], .plain (.busWbyte 0xBE)),
    (['B', 'U', 'S', '.', 'R', 'S', 'P'], .plain (.busRbytes 9)),
    (['C', 'R', 'C', '.', 'S', 'P'], .plain (.crcBuf 9))]

/-- A small letter as its capital; mnemonics are case-insensitive (R92). -/
def asmUpper (c : Char) : Char :=
  if 97 ≤ c.toNat ∧ c.toNat ≤ 122 then Char.ofNat (c.toNat - 32) else c

/-- The form of a mnemonic. -/
def asmLookup (name : List Char) : Option AsmForm :=
  ((asmNames ++ asmPseudo).find? (fun r => r.1 = name.map asmUpper)).map (fun r => r.2)

/-- The line without its comment (R92). -/
def asmStripComment : List Char → List Char
  | [] => []
  | c :: rest => if c = ';' then [] else c :: asmStripComment rest

/-- A character that separates words; R92 leaves it open. Log 14. -/
def asmBlank (c : Char) : Bool := c = ' ' || c = '\t' || c = '\r'

/-- The words of a line; `cur` is the word being read. -/
def asmWords (cur : List Char) : List Char → List (List Char)
  | [] => if cur = [] then [] else [cur]
  | c :: rest =>
    if asmBlank c then (if cur = [] then asmWords [] rest else cur :: asmWords [] rest)
    else asmWords (cur ++ [c]) rest

/-- The value of a digit, decimal or hexadecimal of either case. Log 14. -/
def asmDigit (c : Char) : Option Nat :=
  if 48 ≤ c.toNat ∧ c.toNat ≤ 57 then some (c.toNat - 48)
  else if 65 ≤ c.toNat ∧ c.toNat ≤ 70 then some (c.toNat - 55)
  else if 97 ≤ c.toNat ∧ c.toNat ≤ 102 then some (c.toNat - 87)
  else none

/-- Digits in a base, most significant first, from the value read so far. -/
def asmDigits (base acc : Nat) : List Char → Option Nat
  | [] => some acc
  | c :: rest =>
    match asmDigit c with
    | some v => if v < base then asmDigits base (acc * base + v) rest else none
    | none => none

/-- `number := decimal digits | '0x' hex digits` (R92). -/
def asmNumber (w : List Char) : Option Nat :=
  match w with
  | [] => none
  | '0' :: 'x' :: [] => none
  | '0' :: 'x' :: h => asmDigits 16 0 h
  | d => asmDigits 10 0 d

/-- The instruction of a form and its operand's value, in the operand's range (R92). -/
def asmOperand (f : AsmForm) (v : Nat) : Except AsmError Instr :=
  match f with
  | .plain _ => .error .extraOperand
  | .bit => if v ≤ 1 then .ok (.busWbit (decide (v = 1))) else .error .operandOutOfRange
  | .byte mk => if v ≤ 255 then .ok (mk (BitVec.ofNat 8 v)) else .error .operandOutOfRange
  | .count mk =>
    if v ≤ 15 ∧ countLegal (BitVec.ofNat 4 v) = true then .ok (mk (BitVec.ofNat 4 v))
    else .error .operandOutOfRange
  | .index mk =>
    if v ≤ 15 ∧ indexLegal (BitVec.ofNat 4 v) = true then .ok (mk (BitVec.ofNat 4 v))
    else .error .operandOutOfRange

/-- The instruction of a mnemonic's form and the words after it (R92). -/
def asmInstr (f : AsmForm) (operands : List (List Char)) : Except AsmError Instr :=
  match f, operands with
  | .plain i, [] => .ok i
  | _, [] => .error .missingOperand
  | f, [w] =>
    match asmNumber w with
    | some v => asmOperand f v
    | none => match f with
      | .plain _ => .error .extraOperand
      | _ => .error .badNumber
  | _, _ => .error .extraOperand

/-- One line: a command word, nothing for a line without a mnemonic, or why it is refused (R92). -/
def assembleLine (line : List Char) : Except AsmError (Option CmdWord) :=
  match asmWords [] (asmStripComment line) with
  | [] => .ok none
  | m :: operands =>
    match asmLookup m with
    | none => .error .unknownMnemonic
    | some f =>
      match asmInstr f operands with
      | .ok i => .ok (some (encode i))
      | .error e => .error e

/-- The command words of the lines from line number `n`, or the first refused line and why (R92). DESIGN CHOICE,
log 14: a text with a refused line gives no word at all, and only the first such line is named. -/
def assembleFrom (n : Nat) : List (List Char) → Except (Nat × AsmError) (List CmdWord)
  | [] => .ok []
  | line :: rest =>
    match assembleLine line with
    | .error e => .error (n, e)
    | .ok w =>
      match assembleFrom (n + 1) rest with
      | .ok ws => .ok (w.toList ++ ws)
      | .error e => .error e

/-- A text, its lines numbered from 1 (R92). -/
def assemble (lines : List (List Char)) : Except (Nat × AsmError) (List CmdWord) := assembleFrom 1 lines

end Sys2Proof.Machine
end

