-- ==== Sys2Proof/Safety.lean ====
section
/-! DEFINITION. The terms claims use: what a run of read slots answers, the invariant of every reachable state,
where a transaction stands on the wire, the device's contract (60_exceptions.md R215 to R217), and repeated
TXN.STEP. No definition of the machine reads this file. -/

/-- The seven commands that need the bus or start a transaction (R201). -/
def Sys2Proof.Instr.gated : Sys2Proof.Instr → Bool
  | .busReset => true
  | .busWbit _ => true
  | .busRbit => true
  | .busWbyte _ => true
  | .busRbyte => true
  | .busRbytes _ => true
  | .txnStart => true
  | .spRd _ => false
  | .crcClr => false
  | .crcUpd _ => false
  | .crcBuf _ => false
  | .txnStep => false
  | .txnAbort => false
  | .txnStatus => false

namespace Sys2Proof.Machine

/-! ### What the sensor answers -/

/-- The answers of the next `n` read slots, given the answers at hand and the trace so far: each slot is asked
once, of the trace that the earlier ones made (R26, R102). -/
def sampledBits : Nat → List Bool → Trace → List Bool
  | 0, _, _ => []
  | n + 1, b :: q, tr => b :: sampledBits n q (tr ++ [.r b])
  | n + 1, [], tr => Config.readBit tr :: sampledBits n [] (tr ++ [.r (Config.readBit tr)])

/-- The answers of the next `n` read slots of a machine. -/
def State.nextBits (s : State) (n : Nat) : List Bool := sampledBits n s.bitIn s.trace

/-- The byte whose bits come in this order, bit 0 first (R52, R121). -/
def byteOfBits : List Bool → Byte
  | [] => 0
  | b :: l => (byteOfBits l <<< 1) ||| zext8 b

/-- The bytes of a run of bits, eight at a time (R53). -/
def bytesOfBits (l : List Bool) : Nat → List Byte
  | 0 => []
  | n + 1 => byteOfBits (l.take 8) :: bytesOfBits (l.drop 8) n

/-- The next `n` bytes of a machine's read slots, first byte first (R126). -/
def State.nextBytes (s : State) (n : Nat) : List Byte := bytesOfBits (s.nextBits (8 * n)) n

/-- The events of reading these bits. -/
def readSlots (l : List Bool) : Trace := l.map Slot.r

/-- The events of writing this byte: eight write slots, bit 0 first (R120). -/
def writeSlots (d : Byte) : Trace := (bitsOf d).map Slot.w

/-- The bits of these bytes in slot order (R52, R53). -/
def bitsOfBytes (l : List Byte) : List Bool := l.flatMap bitsOf

/-- The machine after its next `n` read slots: the line released, their events, their answers used (R102). -/
def State.afterReads (s : State) (n : Nat) : State :=
  { s with lineDrive := .released, trace := s.trace ++ readSlots (s.nextBits n), bitIn := s.bitIn.drop n }

/-- Storing bytes from an address on. -/
def Memory.writeAll (m : Memory) (a : Nat) : List Byte → Memory
  | [] => m
  | v :: l => Memory.writeAll (m.write a v) (a + 1) l

/-! ### The opcode table, and how a command word is answered -/

/-- A row of R72's table: a word selects it when `word & mask = pattern` and its N field is in the range. -/
structure OpcodeRow where
  /-- The match value. -/
  pattern : CmdWord
  /-- The mask. -/
  mask : CmdWord
  /-- The least legal N. -/
  nLo : Nat
  /-- The greatest legal N. -/
  nHi : Nat
  /-- The operation with the operands R73 and R74 read from the word. -/
  instr : CmdWord → Instr

/-- R72's table, row by row, with R73's ranges: written from the tables and not from the decoder. -/
def opcodeRows : List OpcodeRow :=
  [ ⟨0x1000, 0xFFFF, 0, 0, fun _ => .busReset⟩,
    ⟨0x2000, 0xFFFE, 0, 0, fun w => .busWbit (w.getLsbD 0)⟩,
    ⟨0x3000, 0xFFFF, 0, 0, fun _ => .busRbit⟩,
    ⟨0x4000, 0xFF00, 0, 0, fun w => .busWbyte (w.setWidth 8)⟩,
    ⟨0x5000, 0xFFFF, 0, 0, fun _ => .busRbyte⟩,
    ⟨0x6000, 0xF0FF, 1, 9, fun w => .busRbytes ((w >>> 8).setWidth 4)⟩,
    ⟨0x7000, 0xF0FF, 0, 8, fun w => .spRd ((w >>> 8).setWidth 4)⟩,
    ⟨0x8000, 0xFFFF, 0, 0, fun _ => .crcClr⟩,
    ⟨0x9000, 0xFF00, 0, 0, fun w => .crcUpd (w.setWidth 8)⟩,
    ⟨0xA000, 0xF0FF, 1, 9, fun w => .crcBuf ((w >>> 8).setWidth 4)⟩,
    ⟨0xB000, 0xFFFF, 0, 0, fun _ => .txnStart⟩,
    ⟨0xC000, 0xFFFF, 0, 0, fun _ => .txnStep⟩,
    ⟨0xD000, 0xFFFF, 0, 0, fun _ => .txnAbort⟩,
    ⟨0xE000, 0xFFFF, 0, 0, fun _ => .txnStatus⟩ ]

/-- The word selects the row (R72): the masked word is the pattern, and N, bits 11:8, is in range. -/
abbrev OpcodeRow.selects (r : OpcodeRow) (w : CmdWord) : Prop :=
  w &&& r.mask = r.pattern ∧ r.nLo ≤ w.toNat / 256 % 16 ∧ w.toNat / 256 % 16 ≤ r.nHi

/-- Delivered to the block in whatever state, the word is answered with STATUS = ILLEGAL and changes nothing else
(R75, R200). -/
def RejectedAsIllegal (w : CmdWord) : Prop :=
  ∀ s rest, s.inputs = ⟨false, some w⟩ :: rest →
    step s = .next { s with
      inputs := rest
      responses := s.responses ++ [rspWord { status := .illegal } s.txnState s.errVariant] }

/-- The machine after a BUSY answer: nothing changed but the history of responses (R200). -/
def State.answeredBusy (s : State) : State :=
  { s with responses := s.responses ++ [rspWord { status := .busy } s.txnState s.errVariant] }

/-- The machine after an ILLEGAL answer (R200). -/
def State.answeredIllegal (s : State) : State :=
  { s with responses := s.responses ++ [rspWord { status := .illegal } s.txnState s.errVariant] }

/-- How many slots an accepted command other than TXN.STEP performs (R57, R109, R127). -/
def commandSlots : Instr → Nat
  | .busReset => 1
  | .busWbit _ => 1
  | .busRbit => 1
  | .busWbyte _ => 8
  | .busRbyte => 8
  | .busRbytes n => 8 * n.toNat
  | .spRd _ => 0
  | .crcClr => 0
  | .crcUpd _ => 0
  | .crcBuf _ => 0
  | .txnStart => 0
  | .txnStep => 0
  | .txnAbort => 0
  | .txnStatus => 0

/-! ### The invariant of every reachable state -/

/-- What holds after reset and after every transition, in every machine of R8's parameter ranges. -/
structure Invariant (s : State) : Prop where
  /-- The parameters are in R8's ranges. -/
  pollRange : pollLimitInRange s.params = true
  chunkRange : spChunkInRange s.params = true
  /-- The line is released between operations (R29). -/
  line : s.lineDrive = .released
  /-- ERR_VARIANT is not NONE exactly in ERR (R23, R176). -/
  errIff : s.errVariant ≠ .noError ↔ s.txnState = .err
  /-- The scratchpad's storage keeps its canonical form. -/
  spForm : s.sp.wf
  /-- SP_IDX is below 9 in RSP, 9 in DONE and 0 elsewhere (R25, R169). -/
  idxRsp : s.txnState = .rsp → s.spIdx.toNat < Config.spLen
  idxDone : s.txnState = .done → s.spIdx = 9
  idxElse : s.txnState ≠ .rsp → s.txnState ≠ .done → s.spIdx = 0
  /-- In RSP and DONE the bytes counted by SP_IDX have been written (R66, R205). -/
  written : s.txnState = .rsp ∨ s.txnState = .done → ∀ i, i < s.spIdx.toNat → s.spW i = true
  /-- POLL_CNT is 0 before the first poll (R24). -/
  pollZero : s.txnState = .idle ∨ s.txnState = .apc → s.pollCnt = 0
  /-- In WCD the limit, where there is one, has not been reached (R166). -/
  pollBelow : s.txnState = .wcd → pollLimitReached s.params s.pollCnt = false
  /-- In ERR the temperature bytes are the variant's sentinel (R31, R168). -/
  errTemp : s.txnState = .err → (s.tempHi, s.tempLo) = sentinel s.errVariant
  /-- In DONE the low byte ends in four zeros, as no sentinel does (R175). -/
  doneTemp : s.txnState = .done → s.tempLo &&& 0x0F = 0

/-! ### Where a transaction stands on the wire (30_encoding.md R86) -/

/-- The slots of a successful reset, SKIP-ROM and CONVERT-T (R86, R164). -/
def convertPhase : Trace := Slot.reset true :: (writeSlots cmdSkipRom ++ writeSlots cmdConvertT)

/-- The slots of a successful reset, SKIP-ROM and READ-SCRATCHPAD (R86, R167). -/
def readPhase : Trace := Slot.reset true :: (writeSlots cmdSkipRom ++ writeSlots cmdReadScratchpad)

/-- In WCD the trace ends with the convert phase and the busy polls POLL_CNT counts; in APR with the poll that
saw the release after them; in RSP with the read phase and the bytes SP_IDX counts, which SP holds. -/
def OnTheWire (s : State) : Prop :=
  match s.txnState with
  | .wcd => ∃ before m, s.trace = before ++ convertPhase ++ readSlots (List.replicate m false) ∧
      s.pollCnt.toNat = min m 65535
  | .apr => ∃ before m, s.trace = before ++ convertPhase ++ readSlots (List.replicate m false ++ [true]) ∧
      s.pollCnt.toNat = min m 65535
  | .rsp => ∃ before bytes, s.trace = before ++ readPhase ++ readSlots (bitsOfBytes bytes) ∧
      bytes.length = s.spIdx.toNat ∧ ∀ i, i < bytes.length → s.spRead i = bytes[i]?
  | .idle => True
  | .apc => True
  | .done => True
  | .err => True

/-! ### The device's contract, as what a trace shows of it -/

/-- No device answers: no presence, and every read slot reads 1 (R215). -/
def NoDevice (tr : Trace) : Prop := Slot.reset true ∉ tr ∧ Slot.r false ∉ tr

/-- A device answers every reset with presence (R215). -/
def DevicePresent (tr : Trace) : Prop := Slot.reset false ∉ tr

/-- After a convert phase the read slots answer 0 while it converts and 1 from then on (R216). -/
def ConversionKept (tr : Trace) : Prop :=
  ∀ before bits after, tr = before ++ convertPhase ++ readSlots bits ++ after →
    bits.Pairwise (fun x y => x = true → y = true)

/-- The read phase that the trace ends with carries the device's nine bytes in its first 72 read slots (R217).
Earlier read phases are not spoken of: the device's bytes change between transactions. -/
def ScratchpadKept (bytes : List Byte) (tr : Trace) : Prop :=
  ∀ before bits, tr = before ++ readPhase ++ readSlots bits →
    bits.take 72 = (bitsOfBytes bytes).take (bits.take 72).length

/-! ### Repeated TXN.STEP -/

/-- `n` TXN.STEP commands in a row, stopping at the first fault or refusal. -/
def runTxn : Nat → State → Host.Outcome State Fault Refusal
  | 0, s => .next s
  | n + 1, s =>
    match exec .txnStep s with
    | .next t => runTxn n t
    | .fault r => .fault r
    | .refused r => .refused r

/-- How many RSP steps read the nine bytes: ceil(9 / SP_CHUNK) (R169, R177). -/
def rspSteps (p : Config.Params) : Nat := (Config.spLen + p.spChunk - 1) / p.spChunk

end Sys2Proof.Machine
end

