-- ==== Sys2Proof/Certificates/Slice0/Obligations.lean ====
section
/-! DEFINITION. The statements for the provers, from the numbered rules of spec/. A statement about every state
holds in states no run reaches, unless it takes `Invariant` as a premise; `Invariant` is stated to hold at reset and to be
kept. -/

open Sys2Proof Sys2Proof.Machine

/-! ### Encoding and decoding (30_encoding.md) -/

/-- R70 to R74: for every well-formed instruction, with every operand its encoding admits, decoding its word
gives it back. -/
def Obligations.DecodeOfEncodeRoundTrip : Prop :=
  ∀ i : Instr, i.wellFormed = true → decode (encode i) = .ok i

/-- R75, R76: a word that decodes is the encoding of what it decodes to, and that is well-formed: no two words
have one meaning, and no bit is ignored. -/
def Obligations.OnlyEncodedWordsDecode : Prop :=
  ∀ (w : CmdWord) (i : Instr), decode w = .ok i → i.wellFormed = true ∧ encode i = w

/-- R72: a word selects an operation when the masked word is the match and N is in the operation's range;
`opcodeRows` is the table as R72 and R73 give it. -/
def Obligations.DecodeFollowsTheOpcodeTable : Prop :=
  ∀ (w : CmdWord) (i : Instr), decode w = Except.ok i ↔ ∃ r ∈ opcodeRows, r.selects w ∧ i = r.instr w

/-- R94: the spec's example words, written out by it, decode to the operations it names; some ILLEGAL words do not
decode. -/
def Obligations.SpecExampleWordsDecode : Prop :=
  decode 0x1000 = .ok .busReset ∧ decode 0x2001 = .ok (.busWbit true) ∧ decode 0x2000 = .ok (.busWbit false) ∧
  decode 0x3000 = .ok .busRbit ∧ decode 0x40CC = .ok (.busWbyte 0xCC) ∧ decode 0x5000 = .ok .busRbyte ∧
  decode 0x6800 = .ok (.busRbytes 8) ∧ decode 0x7100 = .ok (.spRd 1) ∧ decode 0x8000 = .ok .crcClr ∧
  decode 0x9002 = .ok (.crcUpd 0x02) ∧ decode 0xA900 = .ok (.crcBuf 9) ∧ decode 0xB000 = .ok .txnStart ∧
  decode 0xC000 = .ok .txnStep ∧ decode 0xD000 = .ok .txnAbort ∧ decode 0xE000 = .ok .txnStatus ∧
  decode 0x0000 = .error .reservedOp ∧ decode 0xF000 = .error .reservedOp ∧
  decode 0x2002 = .error .mustBeZero ∧ decode 0x6000 = .error .operandRange ∧
  decode 0x6A00 = .error .operandRange ∧ decode 0x7900 = .error .operandRange ∧
  decode 0x1001 = .error .mustBeZero ∧ decode 0xB100 = .error .mustBeZero

/-- R83: the closed form of the response word by shifts, for all fields, beside the model's concatenation. -/
def Obligations.ResponseWordClosedForm : Prop :=
  ∀ (f : RspFields) (ts : TxnState) (ev : ErrVariant),
    (rspWord f ts ev).toNat =
      f.status.code.toNat <<< 24 ||| f.presence.toNat <<< 23 ||| f.done.toNat <<< 22 |||
        ev.code.toNat <<< 20 ||| ts.code.toNat <<< 16 ||| f.data1.toNat <<< 8 ||| f.data0.toNat

/-- R77, R79: every field stands at its bits, bits 19 and 31:26 are 0, and STATUS is never 3. -/
def Obligations.ResponseFieldsAtTheirBits : Prop :=
  ∀ (f : RspFields) (ts : TxnState) (ev : ErrVariant),
    rspData0 (rspWord f ts ev) = f.data0 ∧ rspData1 (rspWord f ts ev) = f.data1 ∧
    rspTxnState (rspWord f ts ev) = ts.code ∧ rspErrVariant (rspWord f ts ev) = ev.code ∧
    rspDone (rspWord f ts ev) = f.done ∧ rspPresence (rspWord f ts ev) = f.presence ∧
    rspStatus (rspWord f ts ev) = f.status.code ∧ rspStatus (rspWord f ts ev) ≠ 3 ∧
    (rspWord f ts ev).getLsbD 19 = false ∧ (rspWord f ts ev).extractLsb' 26 6 = 0

/-! ### One transition -/

/-- A command word on the port that decodes to a well-formed instruction is run: step is exec of it, with the
port's input taken and nothing else around it (R18, R70; log 1). -/
def Obligations.StepRunsTheDecodedInstruction : Prop :=
  ∀ (s : State) (w : CmdWord) (rest : List Input) (i : Instr),
    s.inputs = ⟨false, some w⟩ :: rest → decode w = .ok i → i.wellFormed = true →
    step s = exec i { s with inputs := rest }

/-- R75, R200: a word that selects no row of the table is rejected with STATUS = ILLEGAL in every state: its
response is the only change, and no slot is performed. -/
def Obligations.WordOffTheTableIsIllegal : Prop :=
  ∀ w : CmdWord, (∀ r ∈ opcodeRows, ¬ r.selects w) → RejectedAsIllegal w

/-- R202: legality of the word, then in-flight gating, then the command: the first check that fails gives the
only status. -/
def Obligations.StatusIsTheFirstFailedCheck : Prop :=
  ∀ (s t : State) (w : CmdWord) (rest : List Input),
    s.inputs = ⟨false, some w⟩ :: rest → step s = .next t →
    ∃ r, t.responses = s.responses ++ [r] ∧
      rspStatus r =
        match decode w with
        | .error _ => 1
        | .ok i => if i.gated = true ∧ s.txnState.inFlight = true then 2 else 0

/-- R75, R200 with the model's choice of log 9: an instruction term whose N is outside its range, which no word
decodes to, answers ILLEGAL and changes nothing else. -/
def Obligations.IllFormedTermsAnswerIllegal : Prop :=
  ∀ (i : Instr) (s : State), i.wellFormed = false → exec i s = .next s.answeredIllegal

/-- R200: a command answered with a STATUS other than OK changed no register, not SP or SP_W, and put no event
on the wire; its other response fields are 0 or the unchanged states. -/
def Obligations.RejectionChangesNothing : Prop :=
  ∀ (s t : State) (w : CmdWord) (rest : List Input) (r : RspWord),
    s.inputs = ⟨false, some w⟩ :: rest → step s = .next t → t.responses = s.responses ++ [r] →
    rspStatus r ≠ 0 →
    t = { s with inputs := rest, responses := s.responses ++ [r] } ∧
      rspData0 r = 0 ∧ rspData1 r = 0 ∧ rspDone r = false ∧ rspPresence r = false ∧
      rspTxnState r = s.txnState.code ∧ rspErrVariant r = s.errVariant.code

/-- R77, R80: every command word, accepted or rejected, produces exactly one response, and its TXN_STATE and
ERR_VARIANT fields hold the values after the command: for a rejected command the unchanged ones. -/
def Obligations.ResponseReportsTheStateAfter : Prop :=
  ∀ (s t : State) (w : CmdWord) (rest : List Input),
    s.inputs = ⟨false, some w⟩ :: rest → step s = .next t →
    ∃ r, t.responses = s.responses ++ [r] ∧ rspTxnState r = t.txnState.code ∧
      rspErrVariant r = t.errVariant.code ∧
      (rspStatus r ≠ 0 → t.txnState = s.txnState ∧ t.errVariant = s.errVariant)

/-- R81: PRESENCE is 1 exactly for an accepted BUS.RESET, or a TXN.STEP in APC or APR, whose reset slot saw
presence. -/
def Obligations.PresenceBitOnlyForASeenPresence : Prop :=
  ∀ (s t : State) (w : CmdWord) (rest : List Input),
    s.inputs = ⟨false, some w⟩ :: rest → step s = .next t →
    ∃ r, t.responses = s.responses ++ [r] ∧
      (rspPresence r = true ↔
        s.presenceAnswer = true ∧
          ((decode w = .ok .busReset ∧ s.txnState.inFlight = false) ∨
            (decode w = .ok .txnStep ∧ (s.txnState = .apc ∨ s.txnState = .apr))))

/-- R82, R171: DONE is 1 exactly in the response to the TXN.STEP that moves TXN_STATE from an in-flight state into
DONE or ERR; that response carries the result. -/
def Obligations.DoneBitOnlyOnCompletion : Prop :=
  ∀ (s t : State) (w : CmdWord) (rest : List Input),
    s.inputs = ⟨false, some w⟩ :: rest → step s = .next t →
    ∃ r, t.responses = s.responses ++ [r] ∧
      (rspDone r = true ↔
        decode w = .ok .txnStep ∧ s.txnState.inFlight = true ∧ t.txnState.hasResult = true) ∧
      (rspDone r = true → rspData1 r = t.tempHi ∧ rspData0 r = t.tempLo)

/-- R160, R246: with no command on the port the block does nothing. (That a transition with nothing on the ports
is a next state is the model's, log 7.) -/
def Obligations.NoCommandNoAction : Prop :=
  (∀ s : State, s.inputs = [] → step s = .next s) ∧
  ∀ (s : State) (rest : List Input), s.inputs = ⟨false, none⟩ :: rest →
    step s = .next { s with inputs := rest }

/-- R230, R210: a block reset puts every state element at its reset value, whatever stands on the command port;
it answers nothing and clears no TRACE (log 8 for what the model's own fields do). -/
def Obligations.BlockResetRestoresResetValues : Prop :=
  ∀ (s : State) (c : Option CmdWord) (rest : List Input), s.inputs = ⟨true, c⟩ :: rest →
    ∃ t, step s = .next t ∧
      t.lineDrive = .released ∧ t.txnState = .idle ∧ t.errVariant = .noError ∧ t.pollCnt = 0 ∧
      t.spIdx = 0 ∧ t.crcAcc = 0 ∧ t.tempHi = 0 ∧ t.tempLo = 0 ∧ (∀ i, t.spW i = false) ∧
      t.trace = s.trace ∧ t.responses = s.responses ∧ t.inputs = rest ∧
      t.presenceIn = s.presenceIn ∧ t.bitIn = s.bitIn ∧ t.params = s.params

/-- R40: the values after reset. -/
def Obligations.ResetStateValues : Prop :=
  State.reset.lineDrive = .released ∧ State.reset.txnState.code = 0 ∧ State.reset.errVariant.code = 0 ∧
  State.reset.pollCnt = 0 ∧ State.reset.spIdx = 0 ∧ (∀ i, State.reset.spW i = false) ∧
  State.reset.tempHi = 0x00 ∧ State.reset.tempLo = 0x00 ∧ State.reset.crcAcc = 0x00

/-! ### Bus primitives (40_bus_primitives.md) -/

/-- R104 BUS.RESET: one reset slot, PRESENCE in the response, no other register; BUSY in flight; any other
word of its OP is ILLEGAL. -/
def Obligations.BusResetSamplesPresence : Prop :=
  decode 0x1000 = .ok .busReset ∧
  (∀ w : CmdWord, opField w = 0x1 → w ≠ 0x1000 → RejectedAsIllegal w) ∧
  (∀ s : State, s.txnState.inFlight = true → exec .busReset s = .next s.answeredBusy) ∧
  ∀ s : State, s.txnState.inFlight = false →
    exec .busReset s = .next { s with
      lineDrive := .released
      trace := s.trace ++ [.reset s.presenceAnswer]
      presenceIn := s.presenceIn.tail
      responses := s.responses ++ [rspWord { presence := s.presenceAnswer } s.txnState s.errVariant] }

/-- R105 BUS.WBIT: one write slot with the bit, no other register. -/
def Obligations.BusWbitWritesOneSlot : Prop :=
  (∀ b : Bool, decode (if b then 0x2001 else 0x2000) = .ok (.busWbit b)) ∧
  (∀ w : CmdWord, opField w = 0x2 → w ≠ 0x2000 → w ≠ 0x2001 → RejectedAsIllegal w) ∧
  (∀ (b : Bool) (s : State), s.txnState.inFlight = true → exec (.busWbit b) s = .next s.answeredBusy) ∧
  ∀ (b : Bool) (s : State), s.txnState.inFlight = false →
    exec (.busWbit b) s = .next { s with
      lineDrive := .released
      trace := s.trace ++ [.w b]
      responses := s.responses ++ [rspWord {} s.txnState s.errVariant] }

/-- R106 BUS.RBIT: one read slot, the bit in DATA0, no other register. -/
def Obligations.BusRbitReadsOneSlot : Prop :=
  decode 0x3000 = .ok .busRbit ∧
  (∀ w : CmdWord, opField w = 0x3 → w ≠ 0x3000 → RejectedAsIllegal w) ∧
  (∀ s : State, s.txnState.inFlight = true → exec .busRbit s = .next s.answeredBusy) ∧
  ∀ s : State, s.txnState.inFlight = false →
    exec .busRbit s = .next { s with
      lineDrive := .released
      trace := s.trace ++ [.r s.bitAnswer]
      bitIn := s.bitIn.tail
      responses := s.responses ++
        [rspWord { data0 := if s.bitAnswer then 1 else 0 } s.txnState s.errVariant] }

/-! ### Byte transfer (41_byte_transfer.md) -/

/-- R122 BUS.WBYTE: eight write slots, bit 0 first, no other register. -/
def Obligations.BusWbyteWritesBitZeroFirst : Prop :=
  (∀ d : Byte, decode (0x4000#16 ||| d.setWidth 16) = .ok (.busWbyte d)) ∧
  (∀ w : CmdWord, opField w = 0x4 → nField w ≠ 0 → RejectedAsIllegal w) ∧
  (∀ (d : Byte) (s : State), s.txnState.inFlight = true → exec (.busWbyte d) s = .next s.answeredBusy) ∧
  ∀ (d : Byte) (s : State), s.txnState.inFlight = false →
    exec (.busWbyte d) s = .next { s with
      lineDrive := .released
      trace := s.trace ++ [.w (d.getLsbD 0), .w (d.getLsbD 1), .w (d.getLsbD 2), .w (d.getLsbD 3),
        .w (d.getLsbD 4), .w (d.getLsbD 5), .w (d.getLsbD 6), .w (d.getLsbD 7)]
      responses := s.responses ++ [rspWord {} s.txnState s.errVariant] }

/-- R123, R121 BUS.RBYTE: eight read slots; the byte in DATA0 has the k-th bit read as its bit k; SP and every
other register stay. -/
def Obligations.BusRbyteReadsBitZeroFirst : Prop :=
  decode 0x5000 = .ok .busRbyte ∧
  (∀ w : CmdWord, opField w = 0x5 → w ≠ 0x5000 → RejectedAsIllegal w) ∧
  (∀ s : State, s.txnState.inFlight = true → exec .busRbyte s = .next s.answeredBusy) ∧
  ∀ s : State, s.txnState.inFlight = false →
    ∃ v : Byte, (∀ k, k < 8 → (s.nextBits 8)[k]? = some (v.getLsbD k)) ∧
      exec .busRbyte s = .next { s with
        lineDrive := .released
        trace := s.trace ++ readSlots (s.nextBits 8)
        bitIn := s.bitIn.drop 8
        responses := s.responses ++ [rspWord { data0 := v } s.txnState s.errVariant] }

/-- R124 BUS.RBYTES: n bytes into SP[0..n-1] in the order received, SP[n..8] and every other register unchanged;
a word with a count outside 1..9 is ILLEGAL. -/
def Obligations.BusRbytesFillsTheScratchpad : Prop :=
  (∀ n : BitVec 4, 1 ≤ n.toNat → n.toNat ≤ 9 → decode (0x6000#16 ||| n.setWidth 16 <<< 8) = .ok (.busRbytes n)) ∧
  (∀ w : CmdWord, opField w = 0x6 → (nField w).toNat = 0 ∨ 9 < (nField w).toNat ∨ dataField w ≠ 0 →
    RejectedAsIllegal w) ∧
  (∀ (n : BitVec 4) (s : State), 1 ≤ n.toNat → n.toNat ≤ 9 → s.txnState.inFlight = true →
    exec (.busRbytes n) s = .next s.answeredBusy) ∧
  ∀ (n : BitVec 4) (s : State), 1 ≤ n.toNat → n.toNat ≤ 9 → s.txnState.inFlight = false →
    ∃ t, exec (.busRbytes n) s = .next t ∧
      t = { s with
        lineDrive := .released
        sp := t.sp
        trace := s.trace ++ readSlots (s.nextBits (8 * n.toNat))
        bitIn := s.bitIn.drop (8 * n.toNat)
        responses := s.responses ++ [rspWord {} s.txnState s.errVariant] } ∧
      (∀ j, j < n.toNat → ∃ v : Byte, t.spRead j = some v ∧
        ∀ k, k < 8 → (s.nextBits (8 * n.toNat))[8 * j + k]? = some (v.getLsbD k)) ∧
      ∀ j, n.toNat ≤ j → t.spRead j = s.spRead j

/-- R125 SP.RD: SP[i] in DATA0 in every TXN_STATE, nothing changed and no slot; the model's fault exactly where
SP_W[i] is false; a word with an index above 8 is ILLEGAL. -/
def Obligations.SpRdReadsOneByte : Prop :=
  (∀ i : BitVec 4, i.toNat ≤ 8 → decode (0x7000#16 ||| i.setWidth 16 <<< 8) = .ok (.spRd i)) ∧
  (∀ w : CmdWord, opField w = 0x7 → 8 < (nField w).toNat ∨ dataField w ≠ 0 → RejectedAsIllegal w) ∧
  (∀ (i : BitVec 4) (s : State), i.toNat ≤ 8 → s.spW i.toNat = false →
    exec (.spRd i) s = .fault .unwrittenScratchpadRead) ∧
  ∀ (i : BitVec 4) (s : State) (v : Byte), i.toNat ≤ 8 → s.spRead i.toNat = some v →
    exec (.spRd i) s = .next { s with
      responses := s.responses ++ [rspWord { data0 := v } s.txnState s.errVariant] }

/-! ### CRC-8 (42_crc8.md) -/

/-- R143 CRC.CLR: CRC_ACC is 0 in every state, and nothing else changes. -/
def Obligations.CrcClrClearsTheAccumulator : Prop :=
  decode 0x8000 = .ok .crcClr ∧
  (∀ w : CmdWord, opField w = 0x8 → w ≠ 0x8000 → RejectedAsIllegal w) ∧
  ∀ s : State, exec .crcClr s = .next { s with
    crcAcc := 0
    responses := s.responses ++ [rspWord {} s.txnState s.errVariant] }

/-- R144 CRC.UPD: one byte shifted into CRC_ACC, the new value in DATA0, in every state; nothing else changes. -/
def Obligations.CrcUpdShiftsOneByteIn : Prop :=
  (∀ d : Byte, decode (0x9000#16 ||| d.setWidth 16) = .ok (.crcUpd d)) ∧
  (∀ w : CmdWord, opField w = 0x9 → nField w ≠ 0 → RejectedAsIllegal w) ∧
  ∀ (d : Byte) (s : State), exec (.crcUpd d) s = .next { s with
    crcAcc := crc8Step s.crcAcc d
    responses := s.responses ++ [rspWord { data0 := crc8Step s.crcAcc d } s.txnState s.errVariant] }

/-- R145 CRC.BUF: CRC_ACC becomes the CRC-8 of SP[0..n-1], whatever it was, in every state; the model's fault
exactly where one of these bytes is unwritten; a word with a count outside 1..9 is ILLEGAL. -/
def Obligations.CrcBufChecksTheScratchpad : Prop :=
  (∀ n : BitVec 4, 1 ≤ n.toNat → n.toNat ≤ 9 → decode (0xA000#16 ||| n.setWidth 16 <<< 8) = .ok (.crcBuf n)) ∧
  (∀ w : CmdWord, opField w = 0xA → (nField w).toNat = 0 ∨ 9 < (nField w).toNat ∨ dataField w ≠ 0 →
    RejectedAsIllegal w) ∧
  (∀ (n : BitVec 4) (s : State), 1 ≤ n.toNat → n.toNat ≤ 9 → (∃ j, j < n.toNat ∧ s.spW j = false) →
    exec (.crcBuf n) s = .fault .unwrittenScratchpadRead) ∧
  ∀ (n : BitVec 4) (s : State) (l : List Byte), 1 ≤ n.toNat → n.toNat ≤ 9 → l.length = n.toNat →
    (∀ j, j < n.toNat → s.spRead j = l[j]?) →
    exec (.crcBuf n) s = .next { s with
      crcAcc := crc8 l
      responses := s.responses ++ [rspWord { data0 := crc8 l } s.txnState s.errVariant] }

/-- R142: the residue of a byte list followed by its own CRC is 0. -/
def Obligations.CrcResidueIsZero : Prop :=
  ∀ m : List Byte, crc8 (m ++ [crc8 m]) = 0

/-- R146: crc8_step is linear over XOR, depends only on c ^ d, and has the spec's first sixteen table entries. -/
def Obligations.CrcStepIsLinear : Prop :=
  (∀ c1 c2 d1 d2 : Byte, crc8Step (c1 ^^^ c2) (d1 ^^^ d2) = crc8Step c1 d1 ^^^ crc8Step c2 d2) ∧
  (∀ c d : Byte, crc8Step c d = crc8Step 0 (c ^^^ d)) ∧
  (List.range 16).map (fun i => crc8Step 0 (BitVec.ofNat 8 i)) =
    [0x00, 0x5E, 0xBC, 0xE2, 0x61, 0x3F, 0xDD, 0x83, 0xC2, 0x9C, 0x7E, 0x20, 0xA3, 0xFD, 0x1F, 0x41]

/-- R144's corner: CRC.CLR and then CRC.UPD of each byte of a list leave crc8 of the list in CRC_ACC. -/
def Obligations.CrcUpdAccumulatesAList : Prop :=
  ∀ (l : List Byte) (s : State), ∃ t,
    l.foldl (fun (o : Host.Outcome State Fault Refusal) d =>
        match o with
        | .next u => exec (.crcUpd d) u
        | .fault r => .fault r
        | .refused r => .refused r) (exec .crcClr s) = .next t ∧
      t.crcAcc = crc8 l ∧ t.trace = s.trace ∧ t.responses.length = s.responses.length + 1 + l.length

/-! ### The thermal-transaction sequencer (43_thermal_transaction.md) -/

/-- R161: temp_field by the source's shifts on unbounded integers, truncated to a byte; as one 16-bit value it is
the scratchpad's value shifted left by 4; and the source's worked example. -/
def Obligations.TempFieldIsTheShiftedReading : Prop :=
  (∀ b0 b1 : Byte,
    (tempField b0 b1).1.toNat = (b1.toNat <<< 4 ||| b0.toNat >>> 4) % 256 ∧
    (tempField b0 b1).2.toNat = (b0.toNat <<< 4) % 256 ∧
    (tempField b0 b1).1.toNat * 256 + (tempField b0 b1).2.toNat =
      ((b1.toNat * 256 + b0.toNat) <<< 4) % 65536) ∧
  tempField 0x50 0x05 = (0x55, 0x00)

/-- R175: no reading equals a sentinel, and TEMP_LO alone tells a reading and the three variants apart. -/
def Obligations.SentinelsAreNoReadings : Prop :=
  (∀ (b0 b1 : Byte) (v : ErrVariant), v ≠ .noError → (tempField b0 b1).2 ≠ (sentinel v).2) ∧
  ∀ v v' : ErrVariant, v ≠ .noError → v' ≠ .noError → (sentinel v).2 = (sentinel v').2 → v = v'

/-- R162, R178 TXN.START: from IDLE, DONE and ERR to APC with the error, the poll count and the index cleared;
no slot, SP, TEMP and CRC_ACC unchanged; BUSY in flight. -/
def Obligations.TxnStartBeginsATransaction : Prop :=
  decode 0xB000 = .ok .txnStart ∧
  (∀ w : CmdWord, opField w = 0xB → w ≠ 0xB000 → RejectedAsIllegal w) ∧
  (∀ s : State, s.txnState.inFlight = true → exec .txnStart s = .next s.answeredBusy) ∧
  ∀ s : State, s.txnState.inFlight = false →
    exec .txnStart s = .next { s with
      txnState := .apc
      errVariant := .noError
      pollCnt := 0
      spIdx := 0
      responses := s.responses ++ [rspWord {} .apc .noError] }

/-- R163, R174 TXN.STEP in IDLE, DONE and ERR: accepted, no slot, no change; any other word of its OP is
ILLEGAL. -/
def Obligations.TxnStepOutsideATransactionIsQuiet : Prop :=
  decode 0xC000 = .ok .txnStep ∧
  (∀ w : CmdWord, opField w = 0xC → w ≠ 0xC000 → RejectedAsIllegal w) ∧
  ∀ s : State, s.txnState.inFlight = false →
    exec .txnStep s = .next { s with responses := s.responses ++ [rspWord {} s.txnState s.errVariant] }

/-- R164 TXN.STEP in APC: a reset slot; without presence ERR with variant A and FF FF; with presence the bytes CC
and 44, and WCD. -/
def Obligations.TxnStepAwaitsPresenceForConvert : Prop :=
  (∀ s : State, s.txnState = .apc → s.presenceAnswer = false →
    exec .txnStep s = .next { s with
      lineDrive := .released
      trace := s.trace ++ [.reset false]
      presenceIn := s.presenceIn.tail
      errVariant := .a
      tempHi := 0xFF
      tempLo := 0xFF
      txnState := .err
      responses := s.responses ++ [rspWord { done := true, data1 := 0xFF, data0 := 0xFF } .err .a] }) ∧
  ∀ s : State, s.txnState = .apc → s.presenceAnswer = true →
    exec .txnStep s = .next { s with
      lineDrive := .released
      trace := s.trace ++ .reset true :: (writeSlots 0xCC ++ writeSlots 0x44)
      presenceIn := s.presenceIn.tail
      pollCnt := 0
      txnState := .wcd
      responses := s.responses ++ [rspWord { presence := true } .wcd s.errVariant] }

/-- R165 TXN.STEP in WCD with the line released: one read slot, and APR; POLL_CNT is not written. -/
def Obligations.TxnStepSeesTheConversionDone : Prop :=
  ∀ s : State, s.txnState = .wcd → pollLimitInRange s.params = true → s.bitAnswer = true →
    exec .txnStep s = .next { s with
      lineDrive := .released
      trace := s.trace ++ [.r true]
      bitIn := s.bitIn.tail
      txnState := .apr
      responses := s.responses ++ [rspWord {} .apr s.errVariant] }

/-- R166 TXN.STEP in WCD with the line still low: POLL_CNT rises by one, saturating at 65535; at the limit L, where
there is one, ERR with variant C and FF FD; else WCD goes on. -/
def Obligations.TxnStepCountsABusyPoll : Prop :=
  ∀ s : State, s.txnState = .wcd → pollLimitInRange s.params = true → s.bitAnswer = false →
    ∃ n : BitVec 16, n.toNat = min (s.pollCnt.toNat + 1) 65535 ∧
      ((∃ l, s.params.pollLimit = some l ∧ l ≤ n.toNat) →
        exec .txnStep s = .next { s with
          lineDrive := .released
          trace := s.trace ++ [.r false]
          bitIn := s.bitIn.tail
          pollCnt := n
          errVariant := .c
          tempHi := 0xFF
          tempLo := 0xFD
          txnState := .err
          responses := s.responses ++ [rspWord { done := true, data1 := 0xFF, data0 := 0xFD } .err .c] }) ∧
      ((∀ l, s.params.pollLimit = some l → n.toNat < l) →
        exec .txnStep s = .next { s with
          lineDrive := .released
          trace := s.trace ++ [.r false]
          bitIn := s.bitIn.tail
          pollCnt := n
          responses := s.responses ++ [rspWord {} .wcd s.errVariant] })

/-- R167 TXN.STEP in APR: a reset slot; without presence ERR with variant B and FF FE; with presence the bytes CC
and BE, SP_IDX 0, and RSP. -/
def Obligations.TxnStepAwaitsPresenceForRead : Prop :=
  (∀ s : State, s.txnState = .apr → s.presenceAnswer = false →
    exec .txnStep s = .next { s with
      lineDrive := .released
      trace := s.trace ++ [.reset false]
      presenceIn := s.presenceIn.tail
      errVariant := .b
      tempHi := 0xFF
      tempLo := 0xFE
      txnState := .err
      responses := s.responses ++ [rspWord { done := true, data1 := 0xFF, data0 := 0xFE } .err .b] }) ∧
  ∀ s : State, s.txnState = .apr → s.presenceAnswer = true →
    exec .txnStep s = .next { s with
      lineDrive := .released
      trace := s.trace ++ .reset true :: (writeSlots 0xCC ++ writeSlots 0xBE)
      presenceIn := s.presenceIn.tail
      spIdx := 0
      txnState := .rsp
      responses := s.responses ++ [rspWord { presence := true } .rsp s.errVariant] }

/-- R169, R170 TXN.STEP in RSP: k = min(SP_CHUNK, 9 - SP_IDX) bytes into SP from SP_IDX on, and SP_IDX rises by
k; below nine RSP goes on; at nine the result of SP[0] and SP[1], as this phase has them, and DONE. Every other
address of SP and every other register stays. -/
def Obligations.TxnStepReadsTheScratchpad : Prop :=
  ∀ s : State, Invariant s → s.txnState = .rsp →
    ∃ t k, exec .txnStep s = .next t ∧ k = min s.params.spChunk (9 - s.spIdx.toNat) ∧ 1 ≤ k ∧
      (∀ j, j < k → ∃ v : Byte, t.spRead (s.spIdx.toNat + j) = some v ∧
        ∀ b, b < 8 → (s.nextBits (8 * k))[8 * j + b]? = some (v.getLsbD b)) ∧
      (∀ a, a < s.spIdx.toNat ∨ s.spIdx.toNat + k ≤ a → t.spRead a = s.spRead a) ∧
      t.spIdx.toNat = s.spIdx.toNat + k ∧
      (s.spIdx.toNat + k < 9 →
        t = { s with
          lineDrive := .released
          trace := s.trace ++ readSlots (s.nextBits (8 * k))
          bitIn := s.bitIn.drop (8 * k)
          sp := t.sp
          spIdx := t.spIdx
          responses := s.responses ++ [rspWord {} .rsp s.errVariant] }) ∧
      (s.spIdx.toNat + k = 9 →
        ∃ b0 b1, t.spRead 0 = some b0 ∧ t.spRead 1 = some b1 ∧
          t = { s with
            lineDrive := .released
            trace := s.trace ++ readSlots (s.nextBits (8 * k))
            bitIn := s.bitIn.drop (8 * k)
            sp := t.sp
            spIdx := 9
            tempHi := (tempField b0 b1).1
            tempLo := (tempField b0 b1).2
            txnState := .done
            responses := s.responses ++
              [rspWord { done := true, data1 := (tempField b0 b1).1, data0 := (tempField b0 b1).2 }
                .done s.errVariant] })

/-- R205, 93 U15: a TXN.STEP on a machine whose parameter is outside R8's range is refused by name, in the state
that uses the parameter (which states those are is the model's choice, log 4). -/
def Obligations.TxnStepRefusesABadConfiguration : Prop :=
  (∀ s : State, s.txnState = .wcd → (∃ l, s.params.pollLimit = some l ∧ (l = 0 ∨ 65535 < l)) →
    exec .txnStep s = .refused .pollLimitOutOfRange) ∧
  ∀ s : State, s.txnState = .rsp → s.params.spChunk = 0 ∨ 9 < s.params.spChunk →
    exec .txnStep s = .refused .spChunkOutOfRange

/-- R172 TXN.ABORT: IDLE from every state, with the error, the poll count and the index cleared; no slot, SP, TEMP
and CRC_ACC unchanged. -/
def Obligations.TxnAbortReturnsToIdle : Prop :=
  decode 0xD000 = .ok .txnAbort ∧
  (∀ w : CmdWord, opField w = 0xD → w ≠ 0xD000 → RejectedAsIllegal w) ∧
  ∀ s : State, exec .txnAbort s = .next { s with
    txnState := .idle
    errVariant := .noError
    pollCnt := 0
    spIdx := 0
    responses := s.responses ++ [rspWord {} .idle .noError] }

/-- R173 TXN.STATUS: the result in DONE and ERR, zeros elsewhere; nothing changes. -/
def Obligations.TxnStatusShowsTheResult : Prop :=
  decode 0xE000 = .ok .txnStatus ∧
  (∀ w : CmdWord, opField w = 0xE → w ≠ 0xE000 → RejectedAsIllegal w) ∧
  (∀ s : State, s.txnState = .done ∨ s.txnState = .err →
    exec .txnStatus s = .next { s with
      responses := s.responses ++ [rspWord { data1 := s.tempHi, data0 := s.tempLo } s.txnState s.errVariant] }) ∧
  ∀ s : State, s.txnState ≠ .done → s.txnState ≠ .err →
    exec .txnStatus s = .next { s with
      responses := s.responses ++ [rspWord {} s.txnState s.errVariant] }

/-! ### Whole-machine rules -/

/-- R33, R31, R32, R34: which commands can change which register: LINE_DRIVE only BUS.* and TXN.STEP, CRC_ACC only CRC.*, the sequencer's position
and ERR_VARIANT only TXN.START, TXN.STEP and TXN.ABORT, TEMP only TXN.STEP, SP only BUS.RBYTES inside its count and
TXN.STEP, TRACE only BUS.* and TXN.STEP. The last two clauses are about the model's own fields: no command
changes the parameters (log 3) or the inputs still to come (log 1). -/
def Obligations.OnlyTheNamedCommandsWriteARegister : Prop :=
  ∀ (i : Instr) (s t : State), exec i s = .next t →
    (t.lineDrive ≠ s.lineDrive → i = .txnStep ∨ (i.gated = true ∧ i ≠ .txnStart)) ∧
    (t.crcAcc ≠ s.crcAcc → i = .crcClr ∨ (∃ d, i = .crcUpd d) ∨ ∃ n, i = .crcBuf n) ∧
    ((t.txnState, t.errVariant, t.pollCnt, t.spIdx) ≠ (s.txnState, s.errVariant, s.pollCnt, s.spIdx) →
      i = .txnStart ∨ i = .txnStep ∨ i = .txnAbort) ∧
    ((t.tempHi, t.tempLo) ≠ (s.tempHi, s.tempLo) → i = .txnStep) ∧
    (∀ a, t.spRead a ≠ s.spRead a → i = .txnStep ∨ ∃ n, i = .busRbytes n ∧ a < n.toNat) ∧
    (t.trace ≠ s.trace → i = .txnStep ∨ (i.gated = true ∧ i ≠ .txnStart)) ∧
    t.params = s.params ∧ t.inputs = s.inputs

/-- R57, R109, R127: how many slots a command other than TXN.STEP appends: none where it is rejected. -/
def Obligations.SlotsPerCommand : Prop :=
  ∀ (i : Instr) (s t : State), i ≠ .txnStep → exec i s = .next t →
    ∃ es, t.trace = s.trace ++ es ∧
      es.length = if i.wellFormed = true ∧ ¬ (i.gated = true ∧ s.txnState.inFlight = true)
        then commandSlots i else 0

/-- R180: how many slots a TXN.STEP appends, by the state and the presence answer. -/
def Obligations.SlotsPerTxnStep : Prop :=
  ∀ s t : State, exec .txnStep s = .next t →
    ∃ es, t.trace = s.trace ++ es ∧
      es.length =
        match s.txnState with
        | .idle => 0
        | .apc => if s.presenceAnswer then 17 else 1
        | .wcd => 1
        | .apr => if s.presenceAnswer then 17 else 1
        | .rsp => 8 * min s.params.spChunk (9 - s.spIdx.toNat)
        | .done => 0
        | .err => 0

/-- R243 with R88 to R91: the nominal bus time of the slots each accepted command puts on the wire, with T_REC
between slots. -/
def Obligations.BusTimeOfEachCommand : Prop :=
  ∀ (i : Instr) (s t : State) (es : Trace), i.wellFormed = true →
    ¬ (i.gated = true ∧ s.txnState.inFlight = true) →
    exec i s = .next t → t.trace = s.trace ++ es →
    busTimeUs es =
      match i with
      | .busReset => 960
      | .busWbit _ => 70
      | .busRbit => 70
      | .busWbyte _ => 560 + 7 * Config.tRec
      | .busRbyte => 560 + 7 * Config.tRec
      | .busRbytes n => 560 * n.toNat + (8 * n.toNat - 1) * Config.tRec
      | .txnStep =>
        match s.txnState with
        | .apc => if s.presenceAnswer then 2080 + 16 * Config.tRec else 960
        | .apr => if s.presenceAnswer then 2080 + 16 * Config.tRec else 960
        | .wcd => 70
        | .rsp => 560 * min s.params.spChunk (9 - s.spIdx.toNat) +
            (8 * min s.params.spChunk (9 - s.spIdx.toNat) - 1) * Config.tRec
        | .idle => 0
        | .done => 0
        | .err => 0
      | .spRd _ => 0
      | .crcClr => 0
      | .crcUpd _ => 0
      | .crcBuf _ => 0
      | .txnStart => 0
      | .txnAbort => 0
      | .txnStatus => 0

/-- R88, R89, R90, R103: each slot's phases with the line's drive and their nominal lengths, the low times among
them, its length and its sample point, and that it ends with the line released; the phase that ends at a sample
point is released, so the level there is the device's (R28, R102); when a measured slot meets its figures (whole
microseconds and the places of T_TOL are the model's choices, logs 15 and 16). -/
def Obligations.SlotWaveforms : Prop :=
  (∀ p, (slotPhases (.reset p)).map (fun h => (h.drive, h.us)) = [(.low, 480), (.released, 70), (.released, 410)]) ∧
  (slotPhases (.w true)).map (fun h => (h.drive, h.us)) = [(.low, 6), (.released, 64)] ∧
  (slotPhases (.w false)).map (fun h => (h.drive, h.us)) = [(.low, 60), (.released, 10)] ∧
  (∀ b, (slotPhases (.r b)).map (fun h => (h.drive, h.us)) = [(.low, 6), (.released, 9), (.released, 55)]) ∧
  (∀ p, slotUs (.reset p) = 960 ∧ sampleAtUs (.reset p) = some 550 ∧ sampledLevel (.reset p) = some (!p)) ∧
  (∀ b, slotUs (.w b) = 70 ∧ sampleAtUs (.w b) = none) ∧
  (∀ b, slotUs (.r b) = 70 ∧ sampleAtUs (.r b) = some 15 ∧ sampledLevel (.r b) = some b) ∧
  (∀ e, ((slotPhases e).map (fun p => p.drive)).head? = some .low ∧
    ((slotPhases e).map (fun p => p.drive)).getLast? = some .released) ∧
  (∀ e atUs, sampleAtUs e = some atUs → ∃ earlier p later, slotPhases e = earlier ++ p :: later ∧
    (earlier.map (fun h => h.us)).sum + p.us = atUs ∧ p.drive = .released) ∧
  (∀ ds : List Bool, wireLevel .low ds = false) ∧
  (∀ ds : List Bool, wireLevel .released ds = true ↔ ∀ d ∈ ds, d = false) ∧
  (∀ p l d r, waveformMeets (.reset p) [l, d, r] = true ↔ l = 480 ∧ d = 70 ∧ r = 410) ∧
  (∀ b l r, waveformMeets (.w b) [l, r] = true ↔
    l ≤ (if b then 6 else 60) + Config.tTol ∧ (if b then 6 else 60) ≤ l + Config.tTol ∧ l + r = 70) ∧
  ∀ b l d r, waveformMeets (.r b) [l, d, r] = true ↔
    l ≤ 6 + Config.tTol ∧ 6 ≤ l + Config.tTol ∧ d ≤ 9 + Config.tTol ∧ 9 ≤ d + Config.tTol ∧
      l + d + r ≤ 70 + Config.tTol ∧ 70 ≤ l + d + r + Config.tTol

/-! ### The invariant and the runs -/

/-- R40 with R8: the invariant holds after reset, for every choice of the parameters in R8's ranges. -/
def Obligations.InvariantHoldsAtReset : Prop := Invariant State.reset

/-- R29, R176, R25, R30, R66, R166, R168, R175: every transition keeps the invariant: commands, ILLEGAL words,
block resets and idle ports alike. -/
def Obligations.EveryStepKeepsTheInvariant : Prop :=
  ∀ s t : State, Invariant s → step s = .next t → Invariant t

/-- R86, R164 to R170, R107: while a transaction is in flight the wire carries its phase and nothing else: the
trace ends as `OnTheWire` says, from reset on and after every transition. -/
def Obligations.EveryStepKeepsThePhaseOnTheWire : Prop :=
  OnTheWire State.reset ∧ ∀ s t : State, Invariant s → OnTheWire s → step s = .next t → OnTheWire t

/-- R205: the sequencer never stops: in every state of the invariant TXN.STEP answers a next state. -/
def Obligations.SequencerNeverFaults : Prop :=
  ∀ s : State, Invariant s → ∃ t, exec .txnStep s = .next t

/-- R204, R205: in every state of the invariant a transition stops only by the one fault, on an SP.RD of an unwritten
byte or a CRC.BUF over one; it never refuses. -/
def Obligations.StepStopsOnlyOnAnUnwrittenByte : Prop :=
  ∀ s : State, Invariant s →
    (∃ t, step s = .next t) ∨
    (step s = .fault .unwrittenScratchpadRead ∧
      ∃ w rest, s.inputs = ⟨false, some w⟩ :: rest ∧
        ((∃ i, decode w = .ok (.spRd i) ∧ s.spW i.toNat = false) ∨
          ∃ n j, decode w = .ok (.crcBuf n) ∧ j < n.toNat ∧ s.spW j = false))

/-- R177: a successful transaction with m busy polls takes 1 + (m + 1) + 1 + ceil(9 / SP_CHUNK) steps from APC, no
fewer, and ends in DONE with the device's nine bytes in SP and their temperature field as the result. -/
def Obligations.SuccessTakesTheCountedSteps : Prop :=
  ∀ (s : State) (m : Nat) (bytes : List Byte) (ps rest : List Bool),
    Invariant s → s.txnState = .apc → bytes.length = 9 →
    (∀ l, s.params.pollLimit = some l → m < l) →
    s.presenceIn = true :: true :: ps →
    s.bitIn = List.replicate m false ++ [true] ++ bitsOfBytes bytes ++ rest →
    (∃ u, runTxn (1 + (m + 1) + 1 + rspSteps s.params - 1) s = .next u ∧ u.txnState.inFlight = true) ∧
    ∃ t b0 b1, runTxn (1 + (m + 1) + 1 + rspSteps s.params) s = .next t ∧ t.txnState = .done ∧
      bytes[0]? = some b0 ∧ bytes[1]? = some b1 ∧ (t.tempHi, t.tempLo) = tempField b0 b1 ∧
      (∀ i, i < 9 → t.spRead i = bytes[i]?) ∧
      t.trace = s.trace ++ convertPhase ++ readSlots (List.replicate m false ++ [true]) ++ readPhase ++
        readSlots (bitsOfBytes bytes) ∧
      t.bitIn = rest ∧ t.presenceIn = ps

/-- R246: with POLL_LIMIT = L a transaction is over within 1 + L + 1 + ceil(9 / SP_CHUNK) steps of TXN.START, at most
L + 11, whatever the device answers. -/
def Obligations.BoundedPollingCompletes : Prop :=
  ∀ (s : State) (l : Nat), Invariant s → s.txnState = .apc → s.params.pollLimit = some l →
    1 + l + 1 + rspSteps s.params ≤ l + 11 ∧
    ∃ t, runTxn (1 + l + 1 + rspSteps s.params) s = .next t ∧ t.txnState.hasResult = true

/-- R177, R219: on a line stuck low a transaction with limit L is in ERR with variant C after 1 + L steps and in
WCD at every earlier one; with no limit it stays in WCD for as long as the line is low. -/
def Obligations.StuckLowLineEndsInVariantC : Prop :=
  (∀ (s : State) (l : Nat) (ps rest : List Bool),
    Invariant s → s.txnState = .apc → s.params.pollLimit = some l → s.presenceIn = true :: ps →
    s.bitIn = List.replicate l false ++ rest →
    (∀ k, k < l → ∃ u, runTxn (1 + k) s = .next u ∧ u.txnState = .wcd ∧ u.pollCnt.toNat = k) ∧
    ∃ t, runTxn (1 + l) s = .next t ∧ t.txnState = .err ∧ t.errVariant = .c ∧
      t.tempHi = 0xFF ∧ t.tempLo = 0xFD) ∧
  ∀ (s : State) (m : Nat) (ps rest : List Bool),
    s.txnState = .apc → s.params.pollLimit = none → s.presenceIn = true :: ps →
    s.bitIn = List.replicate m false ++ rest →
    ∃ t, runTxn (1 + m) s = .next t ∧ t.txnState = .wcd ∧ t.pollCnt.toNat = min m 65535 ∧
      t.trace = s.trace ++ convertPhase ++ readSlots (List.replicate m false)

/-- R217 with R170: if the device keeps its scratchpad contract in the read phase that the trace ends with, the step
that completes a transaction reports the temperature field of the device's first two bytes. Earlier read phases may
have carried other bytes. -/
def Obligations.CompletedResultIsTheDevices : Prop :=
  ∀ (s t : State) (bytes : List Byte) (b0 b1 : Byte),
    Invariant s → OnTheWire s → s.txnState = .rsp → exec .txnStep s = .next t → t.txnState = .done →
    bytes.length = 9 → bytes[0]? = some b0 → bytes[1]? = some b1 → ScratchpadKept bytes t.trace →
    (t.tempHi, t.tempLo) = tempField b0 b1 ∧ ∀ i, i < 9 → t.spRead i = bytes[i]?

/-- R215 with R164, R167, R203: where the slots that a reset-await step appends show no device, the step ends the
transaction with the variant of its phase and that variant's sentinel. A device may have answered before. -/
def Obligations.AbsentDeviceEndsTheTransaction : Prop :=
  ∀ (s t : State) (es : Trace), (s.txnState = .apc ∨ s.txnState = .apr) → exec .txnStep s = .next t →
    t.trace = s.trace ++ es → NoDevice es →
    t.txnState = .err ∧ t.errVariant = (if s.txnState = .apc then .a else .b) ∧
      (t.tempHi, t.tempLo) = (if s.txnState = .apc then (0xFF, 0xFF) else (0xFF, 0xFE)) ∧
      es = [.reset false]

/-- R60: the block-internal reads have no side effect: an SP.RD or TXN.STATUS issued twice gives the same response
twice. -/
def Obligations.InternalReadsAreIdempotent : Prop :=
  ∀ (i : Instr) (s t : State), (i = .txnStatus ∨ ∃ k, i = .spRd k) → exec i s = .next t →
    ∃ r, t = { s with responses := s.responses ++ [r] } ∧
      exec i t = .next { s with responses := s.responses ++ [r] ++ [r] }

/-! ### The assembler (30_encoding.md R92, R93) -/

/-- R92: the assembler never emits an ILLEGAL word. -/
def Obligations.AssemblerEmitsLegalWords : Prop :=
  ∀ (lines : List (List Char)) (ws : List CmdWord), assemble lines = .ok ws →
    ∀ w ∈ ws, ∃ i, decode w = .ok i ∧ i.wellFormed = true

/-- R93: the five pseudo-instructions and the words they expand to. -/
def Obligations.PseudoInstructionWords : Prop :=
  assembleLine ['B', 'U', 'S', '.', 'S', 'K', 'I', 'P', 'R', 'O', 'M'] = .ok (some 0x40CC) ∧
  assembleLine ['B', 'U', 'S', '.', 'C', 'O', 'N', 'V', 'E', 'R', 'T'] = .ok (some 0x4044) ∧
  assembleLine ['B', 'U', 'S', '.', 'R', 'E', 'A', 'D', 'S', 'P'] = .ok (some 0x40BE) ∧
  assembleLine ['B', 'U', 'S', '.', 'R', 'S', 'P'] = .ok (some 0x6900) ∧
  assembleLine ['C', 'R', 'C', '.', 'S', 'P'] = .ok (some 0xA900)
end

