-- ==== Sys2Proof/Laws/Decode.lean ====
section
/-! SUPPORT. The three fields of a command word determine it, and what each decoding form answers. -/

namespace Sys2Proof

open Sys2Proof.Machine

/-- A packed word as a number. -/
theorem packWord_toNat (op n : BitVec 4) (d : Byte) :
    (packWord op n d).toNat = op.toNat * 4096 + n.toNat * 256 + d.toNat := by
  have := op.isLt
  have := n.isLt
  have := d.isLt
  simp only [packWord, BitVec.toNat_append]
  rw [← Nat.shiftLeft_add_eq_or_of_lt (by omega), ← Nat.shiftLeft_add_eq_or_of_lt (by omega)]
  simp [Nat.shiftLeft_eq]
  omega

@[simp] theorem opField_packWord (op n : BitVec 4) (d : Byte) : opField (packWord op n d) = op := by
  apply BitVec.eq_of_toNat_eq
  have := op.isLt
  have := n.isLt
  have := d.isLt
  simp only [opField, BitVec.extractLsb'_toNat, Nat.shiftRight_eq_div_pow, packWord_toNat]
  omega

@[simp] theorem nField_packWord (op n : BitVec 4) (d : Byte) : nField (packWord op n d) = n := by
  apply BitVec.eq_of_toNat_eq
  have := op.isLt
  have := n.isLt
  have := d.isLt
  simp only [nField, BitVec.extractLsb'_toNat, Nat.shiftRight_eq_div_pow, packWord_toNat]
  omega

@[simp] theorem dataField_packWord (op n : BitVec 4) (d : Byte) : dataField (packWord op n d) = d := by
  apply BitVec.eq_of_toNat_eq
  have := op.isLt
  have := n.isLt
  have := d.isLt
  simp only [dataField, BitVec.extractLsb'_toNat, Nat.shiftRight_eq_div_pow, packWord_toNat]
  omega

/-- A word is its three fields (R70). -/
theorem packWord_fields (w : CmdWord) : packWord (opField w) (nField w) (dataField w) = w := by
  apply BitVec.eq_of_toNat_eq
  rw [packWord_toNat]
  simp only [opField, nField, dataField, BitVec.extractLsb'_toNat, Nat.shiftRight_eq_div_pow]
  omega

/-- N as the number R72's ranges are about. -/
theorem nField_toNat (w : CmdWord) : (nField w).toNat = w.toNat / 256 % 16 := by
  simp [nField, Nat.shiftRight_eq_div_pow]

/-- Masking a word masks its fields. -/
theorem packWord_and (o n mo mn : BitVec 4) (d md : Byte) :
    packWord o n d &&& packWord mo mn md = packWord (o &&& mo) (n &&& mn) (d &&& md) := by
  show ((o ++ n ++ d) &&& (mo ++ mn ++ md) : BitVec (4 + 4 + 8)) = (o &&& mo) ++ (n &&& mn) ++ (d &&& md)
  ext i hi
  simp only [BitVec.getElem_and, BitVec.getElem_append]
  split <;> (try split) <;> rfl

theorem packWord_inj {o n o' n' : BitVec 4} {d d' : Byte} :
    packWord o n d = packWord o' n' d' ↔ o = o' ∧ n = n' ∧ d = d' := by
  constructor
  · intro h
    refine ⟨?_, ?_, ?_⟩
    · simpa using congrArg opField h
    · simpa using congrArg nField h
    · simpa using congrArg dataField h
  · rintro ⟨rfl, rfl, rfl⟩
    rfl

theorem decodePlain_eq_ok {w : CmdWord} {i j : Instr} :
    decodePlain w j = .ok i ↔ i = j ∧ nField w = 0 ∧ dataField w = 0 := by
  unfold decodePlain
  split <;> simp_all [@eq_comm _ i]

theorem decodeData_eq_ok {w : CmdWord} {mk : Byte → Instr} {i : Instr} :
    decodeData w mk = .ok i ↔ i = mk (dataField w) ∧ nField w = 0 := by
  unfold decodeData
  split <;> simp_all [@eq_comm _ i]

theorem decodeN_eq_ok {w : CmdWord} {legal : BitVec 4 → Bool} {mk : BitVec 4 → Instr} {i : Instr} :
    decodeN w legal mk = .ok i ↔ i = mk (nField w) ∧ dataField w = 0 ∧ legal (nField w) = true := by
  unfold decodeN
  split
  · split <;> simp_all [@eq_comm _ i]
  · simp_all

theorem decodeBit_eq_ok {w : CmdWord} {mk : Bool → Instr} {i : Instr} :
    decodeBit w mk = .ok i ↔
      i = mk ((dataField w).getLsbD 0) ∧ nField w = 0 ∧ dataField w >>> 1 = 0 := by
  unfold decodeBit
  split
  · next h => simp only [Except.ok.injEq, @eq_comm _ i, h, and_true]
  · next h => exact ⟨fun e => (by cases e), fun e => absurd e.2 h⟩

end Sys2Proof
end

