-- ==== Sys2Proof/Laws/Operands.lean ====
section
/-! SUPPORT. The ranges of the operands and of the parameters, as inequalities (30_encoding.md R73; 00_scope.md R8). -/

namespace Sys2Proof.Machine

theorem countLegal_iff (n : BitVec 4) : countLegal n = true ↔ 1 ≤ n.toNat ∧ n.toNat ≤ 9 := by
  simp only [countLegal, Bool.and_eq_true, decide_eq_true_eq]
  exact Iff.rfl

theorem countLegal_eq_false_iff (n : BitVec 4) : countLegal n = false ↔ n.toNat = 0 ∨ 9 < n.toNat := by
  rw [← Bool.not_eq_true, countLegal_iff]
  omega

theorem indexLegal_iff (i : BitVec 4) : indexLegal i = true ↔ i.toNat ≤ 8 := by
  simp only [indexLegal, decide_eq_true_eq]
  exact Nat.lt_succ_iff

theorem indexLegal_eq_false_iff (i : BitVec 4) : indexLegal i = false ↔ 8 < i.toNat := by
  rw [← Bool.not_eq_true, indexLegal_iff]
  omega

theorem spChunkInRange_iff (p : Config.Params) :
    spChunkInRange p = true ↔ 1 ≤ p.spChunk ∧ p.spChunk ≤ 9 := by
  simp only [spChunkInRange, Bool.and_eq_true, decide_eq_true_eq]
  exact Iff.rfl

theorem pollLimitInRange_iff (p : Config.Params) :
    pollLimitInRange p = true ↔ ∀ l, p.pollLimit = some l → 1 ≤ l ∧ l ≤ 65535 := by
  unfold pollLimitInRange
  split
  · next h => simp [h]
  · next l h =>
    simp only [Bool.and_eq_true, decide_eq_true_eq, h, Option.some.injEq]
    exact ⟨fun hl _ e => e ▸ hl, fun hl => hl l rfl⟩

end Sys2Proof.Machine
end

