-- ==== Sys2Proof/Laws/State.lean ====
section
/-! SUPPORT. What each register update leaves in each field: true by rfl, so that no proof unfolds an update. -/

namespace Sys2Proof.Machine

variable (s : State)

/-! setLine -/
@[simp] theorem State.setLine_lineDrive (d : LineDrive) : (s.setLine d).lineDrive = d := rfl
@[simp] theorem State.setLine_txnState (d : LineDrive) : (s.setLine d).txnState = s.txnState := rfl
@[simp] theorem State.setLine_errVariant (d : LineDrive) : (s.setLine d).errVariant = s.errVariant := rfl
@[simp] theorem State.setLine_pollCnt (d : LineDrive) : (s.setLine d).pollCnt = s.pollCnt := rfl
@[simp] theorem State.setLine_spIdx (d : LineDrive) : (s.setLine d).spIdx = s.spIdx := rfl
@[simp] theorem State.setLine_sp (d : LineDrive) : (s.setLine d).sp = s.sp := rfl
@[simp] theorem State.setLine_tempHi (d : LineDrive) : (s.setLine d).tempHi = s.tempHi := rfl
@[simp] theorem State.setLine_tempLo (d : LineDrive) : (s.setLine d).tempLo = s.tempLo := rfl
@[simp] theorem State.setLine_crcAcc (d : LineDrive) : (s.setLine d).crcAcc = s.crcAcc := rfl
@[simp] theorem State.setLine_trace (d : LineDrive) : (s.setLine d).trace = s.trace := rfl
@[simp] theorem State.setLine_responses (d : LineDrive) : (s.setLine d).responses = s.responses := rfl
@[simp] theorem State.setLine_inputs (d : LineDrive) : (s.setLine d).inputs = s.inputs := rfl
@[simp] theorem State.setLine_presenceIn (d : LineDrive) : (s.setLine d).presenceIn = s.presenceIn := rfl
@[simp] theorem State.setLine_bitIn (d : LineDrive) : (s.setLine d).bitIn = s.bitIn := rfl
@[simp] theorem State.setLine_params (d : LineDrive) : (s.setLine d).params = s.params := rfl

/-! setTxn -/
@[simp] theorem State.setTxn_lineDrive (t : TxnState) : (s.setTxn t).lineDrive = s.lineDrive := rfl
@[simp] theorem State.setTxn_txnState (t : TxnState) : (s.setTxn t).txnState = t := rfl
@[simp] theorem State.setTxn_errVariant (t : TxnState) : (s.setTxn t).errVariant = s.errVariant := rfl
@[simp] theorem State.setTxn_pollCnt (t : TxnState) : (s.setTxn t).pollCnt = s.pollCnt := rfl
@[simp] theorem State.setTxn_spIdx (t : TxnState) : (s.setTxn t).spIdx = s.spIdx := rfl
@[simp] theorem State.setTxn_sp (t : TxnState) : (s.setTxn t).sp = s.sp := rfl
@[simp] theorem State.setTxn_tempHi (t : TxnState) : (s.setTxn t).tempHi = s.tempHi := rfl
@[simp] theorem State.setTxn_tempLo (t : TxnState) : (s.setTxn t).tempLo = s.tempLo := rfl
@[simp] theorem State.setTxn_crcAcc (t : TxnState) : (s.setTxn t).crcAcc = s.crcAcc := rfl
@[simp] theorem State.setTxn_trace (t : TxnState) : (s.setTxn t).trace = s.trace := rfl
@[simp] theorem State.setTxn_responses (t : TxnState) : (s.setTxn t).responses = s.responses := rfl
@[simp] theorem State.setTxn_inputs (t : TxnState) : (s.setTxn t).inputs = s.inputs := rfl
@[simp] theorem State.setTxn_presenceIn (t : TxnState) : (s.setTxn t).presenceIn = s.presenceIn := rfl
@[simp] theorem State.setTxn_bitIn (t : TxnState) : (s.setTxn t).bitIn = s.bitIn := rfl
@[simp] theorem State.setTxn_params (t : TxnState) : (s.setTxn t).params = s.params := rfl

/-! setErr -/
@[simp] theorem State.setErr_lineDrive (v : ErrVariant) : (s.setErr v).lineDrive = s.lineDrive := rfl
@[simp] theorem State.setErr_txnState (v : ErrVariant) : (s.setErr v).txnState = s.txnState := rfl
@[simp] theorem State.setErr_errVariant (v : ErrVariant) : (s.setErr v).errVariant = v := rfl
@[simp] theorem State.setErr_pollCnt (v : ErrVariant) : (s.setErr v).pollCnt = s.pollCnt := rfl
@[simp] theorem State.setErr_spIdx (v : ErrVariant) : (s.setErr v).spIdx = s.spIdx := rfl
@[simp] theorem State.setErr_sp (v : ErrVariant) : (s.setErr v).sp = s.sp := rfl
@[simp] theorem State.setErr_tempHi (v : ErrVariant) : (s.setErr v).tempHi = s.tempHi := rfl
@[simp] theorem State.setErr_tempLo (v : ErrVariant) : (s.setErr v).tempLo = s.tempLo := rfl
@[simp] theorem State.setErr_crcAcc (v : ErrVariant) : (s.setErr v).crcAcc = s.crcAcc := rfl
@[simp] theorem State.setErr_trace (v : ErrVariant) : (s.setErr v).trace = s.trace := rfl
@[simp] theorem State.setErr_responses (v : ErrVariant) : (s.setErr v).responses = s.responses := rfl
@[simp] theorem State.setErr_inputs (v : ErrVariant) : (s.setErr v).inputs = s.inputs := rfl
@[simp] theorem State.setErr_presenceIn (v : ErrVariant) : (s.setErr v).presenceIn = s.presenceIn := rfl
@[simp] theorem State.setErr_bitIn (v : ErrVariant) : (s.setErr v).bitIn = s.bitIn := rfl
@[simp] theorem State.setErr_params (v : ErrVariant) : (s.setErr v).params = s.params := rfl

/-! setPollCnt -/
@[simp] theorem State.setPollCnt_lineDrive (n : BitVec 16) : (s.setPollCnt n).lineDrive = s.lineDrive := rfl
@[simp] theorem State.setPollCnt_txnState (n : BitVec 16) : (s.setPollCnt n).txnState = s.txnState := rfl
@[simp] theorem State.setPollCnt_errVariant (n : BitVec 16) : (s.setPollCnt n).errVariant = s.errVariant := rfl
@[simp] theorem State.setPollCnt_pollCnt (n : BitVec 16) : (s.setPollCnt n).pollCnt = n := rfl
@[simp] theorem State.setPollCnt_spIdx (n : BitVec 16) : (s.setPollCnt n).spIdx = s.spIdx := rfl
@[simp] theorem State.setPollCnt_sp (n : BitVec 16) : (s.setPollCnt n).sp = s.sp := rfl
@[simp] theorem State.setPollCnt_tempHi (n : BitVec 16) : (s.setPollCnt n).tempHi = s.tempHi := rfl
@[simp] theorem State.setPollCnt_tempLo (n : BitVec 16) : (s.setPollCnt n).tempLo = s.tempLo := rfl
@[simp] theorem State.setPollCnt_crcAcc (n : BitVec 16) : (s.setPollCnt n).crcAcc = s.crcAcc := rfl
@[simp] theorem State.setPollCnt_trace (n : BitVec 16) : (s.setPollCnt n).trace = s.trace := rfl
@[simp] theorem State.setPollCnt_responses (n : BitVec 16) : (s.setPollCnt n).responses = s.responses := rfl
@[simp] theorem State.setPollCnt_inputs (n : BitVec 16) : (s.setPollCnt n).inputs = s.inputs := rfl
@[simp] theorem State.setPollCnt_presenceIn (n : BitVec 16) : (s.setPollCnt n).presenceIn = s.presenceIn := rfl
@[simp] theorem State.setPollCnt_bitIn (n : BitVec 16) : (s.setPollCnt n).bitIn = s.bitIn := rfl
@[simp] theorem State.setPollCnt_params (n : BitVec 16) : (s.setPollCnt n).params = s.params := rfl

/-! setSpIdx -/
@[simp] theorem State.setSpIdx_lineDrive (i : BitVec 4) : (s.setSpIdx i).lineDrive = s.lineDrive := rfl
@[simp] theorem State.setSpIdx_txnState (i : BitVec 4) : (s.setSpIdx i).txnState = s.txnState := rfl
@[simp] theorem State.setSpIdx_errVariant (i : BitVec 4) : (s.setSpIdx i).errVariant = s.errVariant := rfl
@[simp] theorem State.setSpIdx_pollCnt (i : BitVec 4) : (s.setSpIdx i).pollCnt = s.pollCnt := rfl
@[simp] theorem State.setSpIdx_spIdx (i : BitVec 4) : (s.setSpIdx i).spIdx = i := rfl
@[simp] theorem State.setSpIdx_sp (i : BitVec 4) : (s.setSpIdx i).sp = s.sp := rfl
@[simp] theorem State.setSpIdx_tempHi (i : BitVec 4) : (s.setSpIdx i).tempHi = s.tempHi := rfl
@[simp] theorem State.setSpIdx_tempLo (i : BitVec 4) : (s.setSpIdx i).tempLo = s.tempLo := rfl
@[simp] theorem State.setSpIdx_crcAcc (i : BitVec 4) : (s.setSpIdx i).crcAcc = s.crcAcc := rfl
@[simp] theorem State.setSpIdx_trace (i : BitVec 4) : (s.setSpIdx i).trace = s.trace := rfl
@[simp] theorem State.setSpIdx_responses (i : BitVec 4) : (s.setSpIdx i).responses = s.responses := rfl
@[simp] theorem State.setSpIdx_inputs (i : BitVec 4) : (s.setSpIdx i).inputs = s.inputs := rfl
@[simp] theorem State.setSpIdx_presenceIn (i : BitVec 4) : (s.setSpIdx i).presenceIn = s.presenceIn := rfl
@[simp] theorem State.setSpIdx_bitIn (i : BitVec 4) : (s.setSpIdx i).bitIn = s.bitIn := rfl
@[simp] theorem State.setSpIdx_params (i : BitVec 4) : (s.setSpIdx i).params = s.params := rfl

/-! setSp -/
@[simp] theorem State.setSp_lineDrive (m : Memory) : (s.setSp m).lineDrive = s.lineDrive := rfl
@[simp] theorem State.setSp_txnState (m : Memory) : (s.setSp m).txnState = s.txnState := rfl
@[simp] theorem State.setSp_errVariant (m : Memory) : (s.setSp m).errVariant = s.errVariant := rfl
@[simp] theorem State.setSp_pollCnt (m : Memory) : (s.setSp m).pollCnt = s.pollCnt := rfl
@[simp] theorem State.setSp_spIdx (m : Memory) : (s.setSp m).spIdx = s.spIdx := rfl
@[simp] theorem State.setSp_sp (m : Memory) : (s.setSp m).sp = m := rfl
@[simp] theorem State.setSp_tempHi (m : Memory) : (s.setSp m).tempHi = s.tempHi := rfl
@[simp] theorem State.setSp_tempLo (m : Memory) : (s.setSp m).tempLo = s.tempLo := rfl
@[simp] theorem State.setSp_crcAcc (m : Memory) : (s.setSp m).crcAcc = s.crcAcc := rfl
@[simp] theorem State.setSp_trace (m : Memory) : (s.setSp m).trace = s.trace := rfl
@[simp] theorem State.setSp_responses (m : Memory) : (s.setSp m).responses = s.responses := rfl
@[simp] theorem State.setSp_inputs (m : Memory) : (s.setSp m).inputs = s.inputs := rfl
@[simp] theorem State.setSp_presenceIn (m : Memory) : (s.setSp m).presenceIn = s.presenceIn := rfl
@[simp] theorem State.setSp_bitIn (m : Memory) : (s.setSp m).bitIn = s.bitIn := rfl
@[simp] theorem State.setSp_params (m : Memory) : (s.setSp m).params = s.params := rfl

/-! setTemp -/
@[simp] theorem State.setTemp_lineDrive (t : Byte × Byte) : (s.setTemp t).lineDrive = s.lineDrive := rfl
@[simp] theorem State.setTemp_txnState (t : Byte × Byte) : (s.setTemp t).txnState = s.txnState := rfl
@[simp] theorem State.setTemp_errVariant (t : Byte × Byte) : (s.setTemp t).errVariant = s.errVariant := rfl
@[simp] theorem State.setTemp_pollCnt (t : Byte × Byte) : (s.setTemp t).pollCnt = s.pollCnt := rfl
@[simp] theorem State.setTemp_spIdx (t : Byte × Byte) : (s.setTemp t).spIdx = s.spIdx := rfl
@[simp] theorem State.setTemp_sp (t : Byte × Byte) : (s.setTemp t).sp = s.sp := rfl
@[simp] theorem State.setTemp_tempHi (t : Byte × Byte) : (s.setTemp t).tempHi = t.1 := rfl
@[simp] theorem State.setTemp_tempLo (t : Byte × Byte) : (s.setTemp t).tempLo = t.2 := rfl
@[simp] theorem State.setTemp_crcAcc (t : Byte × Byte) : (s.setTemp t).crcAcc = s.crcAcc := rfl
@[simp] theorem State.setTemp_trace (t : Byte × Byte) : (s.setTemp t).trace = s.trace := rfl
@[simp] theorem State.setTemp_responses (t : Byte × Byte) : (s.setTemp t).responses = s.responses := rfl
@[simp] theorem State.setTemp_inputs (t : Byte × Byte) : (s.setTemp t).inputs = s.inputs := rfl
@[simp] theorem State.setTemp_presenceIn (t : Byte × Byte) : (s.setTemp t).presenceIn = s.presenceIn := rfl
@[simp] theorem State.setTemp_bitIn (t : Byte × Byte) : (s.setTemp t).bitIn = s.bitIn := rfl
@[simp] theorem State.setTemp_params (t : Byte × Byte) : (s.setTemp t).params = s.params := rfl

/-! setCrc -/
@[simp] theorem State.setCrc_lineDrive (c : Byte) : (s.setCrc c).lineDrive = s.lineDrive := rfl
@[simp] theorem State.setCrc_txnState (c : Byte) : (s.setCrc c).txnState = s.txnState := rfl
@[simp] theorem State.setCrc_errVariant (c : Byte) : (s.setCrc c).errVariant = s.errVariant := rfl
@[simp] theorem State.setCrc_pollCnt (c : Byte) : (s.setCrc c).pollCnt = s.pollCnt := rfl
@[simp] theorem State.setCrc_spIdx (c : Byte) : (s.setCrc c).spIdx = s.spIdx := rfl
@[simp] theorem State.setCrc_sp (c : Byte) : (s.setCrc c).sp = s.sp := rfl
@[simp] theorem State.setCrc_tempHi (c : Byte) : (s.setCrc c).tempHi = s.tempHi := rfl
@[simp] theorem State.setCrc_tempLo (c : Byte) : (s.setCrc c).tempLo = s.tempLo := rfl
@[simp] theorem State.setCrc_crcAcc (c : Byte) : (s.setCrc c).crcAcc = c := rfl
@[simp] theorem State.setCrc_trace (c : Byte) : (s.setCrc c).trace = s.trace := rfl
@[simp] theorem State.setCrc_responses (c : Byte) : (s.setCrc c).responses = s.responses := rfl
@[simp] theorem State.setCrc_inputs (c : Byte) : (s.setCrc c).inputs = s.inputs := rfl
@[simp] theorem State.setCrc_presenceIn (c : Byte) : (s.setCrc c).presenceIn = s.presenceIn := rfl
@[simp] theorem State.setCrc_bitIn (c : Byte) : (s.setCrc c).bitIn = s.bitIn := rfl
@[simp] theorem State.setCrc_params (c : Byte) : (s.setCrc c).params = s.params := rfl

/-! appendSlot -/
@[simp] theorem State.appendSlot_lineDrive (e : Slot) : (s.appendSlot e).lineDrive = s.lineDrive := rfl
@[simp] theorem State.appendSlot_txnState (e : Slot) : (s.appendSlot e).txnState = s.txnState := rfl
@[simp] theorem State.appendSlot_errVariant (e : Slot) : (s.appendSlot e).errVariant = s.errVariant := rfl
@[simp] theorem State.appendSlot_pollCnt (e : Slot) : (s.appendSlot e).pollCnt = s.pollCnt := rfl
@[simp] theorem State.appendSlot_spIdx (e : Slot) : (s.appendSlot e).spIdx = s.spIdx := rfl
@[simp] theorem State.appendSlot_sp (e : Slot) : (s.appendSlot e).sp = s.sp := rfl
@[simp] theorem State.appendSlot_tempHi (e : Slot) : (s.appendSlot e).tempHi = s.tempHi := rfl
@[simp] theorem State.appendSlot_tempLo (e : Slot) : (s.appendSlot e).tempLo = s.tempLo := rfl
@[simp] theorem State.appendSlot_crcAcc (e : Slot) : (s.appendSlot e).crcAcc = s.crcAcc := rfl
@[simp] theorem State.appendSlot_trace (e : Slot) : (s.appendSlot e).trace = s.trace ++ [e] := rfl
@[simp] theorem State.appendSlot_responses (e : Slot) : (s.appendSlot e).responses = s.responses := rfl
@[simp] theorem State.appendSlot_inputs (e : Slot) : (s.appendSlot e).inputs = s.inputs := rfl
@[simp] theorem State.appendSlot_presenceIn (e : Slot) : (s.appendSlot e).presenceIn = s.presenceIn := rfl
@[simp] theorem State.appendSlot_bitIn (e : Slot) : (s.appendSlot e).bitIn = s.bitIn := rfl
@[simp] theorem State.appendSlot_params (e : Slot) : (s.appendSlot e).params = s.params := rfl

/-! emit -/
@[simp] theorem State.emit_lineDrive (w : RspWord) : (s.emit w).lineDrive = s.lineDrive := rfl
@[simp] theorem State.emit_txnState (w : RspWord) : (s.emit w).txnState = s.txnState := rfl
@[simp] theorem State.emit_errVariant (w : RspWord) : (s.emit w).errVariant = s.errVariant := rfl
@[simp] theorem State.emit_pollCnt (w : RspWord) : (s.emit w).pollCnt = s.pollCnt := rfl
@[simp] theorem State.emit_spIdx (w : RspWord) : (s.emit w).spIdx = s.spIdx := rfl
@[simp] theorem State.emit_sp (w : RspWord) : (s.emit w).sp = s.sp := rfl
@[simp] theorem State.emit_tempHi (w : RspWord) : (s.emit w).tempHi = s.tempHi := rfl
@[simp] theorem State.emit_tempLo (w : RspWord) : (s.emit w).tempLo = s.tempLo := rfl
@[simp] theorem State.emit_crcAcc (w : RspWord) : (s.emit w).crcAcc = s.crcAcc := rfl
@[simp] theorem State.emit_trace (w : RspWord) : (s.emit w).trace = s.trace := rfl
@[simp] theorem State.emit_responses (w : RspWord) : (s.emit w).responses = s.responses ++ [w] := rfl
@[simp] theorem State.emit_inputs (w : RspWord) : (s.emit w).inputs = s.inputs := rfl
@[simp] theorem State.emit_presenceIn (w : RspWord) : (s.emit w).presenceIn = s.presenceIn := rfl
@[simp] theorem State.emit_bitIn (w : RspWord) : (s.emit w).bitIn = s.bitIn := rfl
@[simp] theorem State.emit_params (w : RspWord) : (s.emit w).params = s.params := rfl

/-! popPresence -/
@[simp] theorem State.popPresence_lineDrive : (s.popPresence).lineDrive = s.lineDrive := rfl
@[simp] theorem State.popPresence_txnState : (s.popPresence).txnState = s.txnState := rfl
@[simp] theorem State.popPresence_errVariant : (s.popPresence).errVariant = s.errVariant := rfl
@[simp] theorem State.popPresence_pollCnt : (s.popPresence).pollCnt = s.pollCnt := rfl
@[simp] theorem State.popPresence_spIdx : (s.popPresence).spIdx = s.spIdx := rfl
@[simp] theorem State.popPresence_sp : (s.popPresence).sp = s.sp := rfl
@[simp] theorem State.popPresence_tempHi : (s.popPresence).tempHi = s.tempHi := rfl
@[simp] theorem State.popPresence_tempLo : (s.popPresence).tempLo = s.tempLo := rfl
@[simp] theorem State.popPresence_crcAcc : (s.popPresence).crcAcc = s.crcAcc := rfl
@[simp] theorem State.popPresence_trace : (s.popPresence).trace = s.trace := rfl
@[simp] theorem State.popPresence_responses : (s.popPresence).responses = s.responses := rfl
@[simp] theorem State.popPresence_inputs : (s.popPresence).inputs = s.inputs := rfl
@[simp] theorem State.popPresence_presenceIn : (s.popPresence).presenceIn = s.presenceIn.tail := rfl
@[simp] theorem State.popPresence_bitIn : (s.popPresence).bitIn = s.bitIn := rfl
@[simp] theorem State.popPresence_params : (s.popPresence).params = s.params := rfl

/-! popBit -/
@[simp] theorem State.popBit_lineDrive : (s.popBit).lineDrive = s.lineDrive := rfl
@[simp] theorem State.popBit_txnState : (s.popBit).txnState = s.txnState := rfl
@[simp] theorem State.popBit_errVariant : (s.popBit).errVariant = s.errVariant := rfl
@[simp] theorem State.popBit_pollCnt : (s.popBit).pollCnt = s.pollCnt := rfl
@[simp] theorem State.popBit_spIdx : (s.popBit).spIdx = s.spIdx := rfl
@[simp] theorem State.popBit_sp : (s.popBit).sp = s.sp := rfl
@[simp] theorem State.popBit_tempHi : (s.popBit).tempHi = s.tempHi := rfl
@[simp] theorem State.popBit_tempLo : (s.popBit).tempLo = s.tempLo := rfl
@[simp] theorem State.popBit_crcAcc : (s.popBit).crcAcc = s.crcAcc := rfl
@[simp] theorem State.popBit_trace : (s.popBit).trace = s.trace := rfl
@[simp] theorem State.popBit_responses : (s.popBit).responses = s.responses := rfl
@[simp] theorem State.popBit_inputs : (s.popBit).inputs = s.inputs := rfl
@[simp] theorem State.popBit_presenceIn : (s.popBit).presenceIn = s.presenceIn := rfl
@[simp] theorem State.popBit_bitIn : (s.popBit).bitIn = s.bitIn.tail := rfl
@[simp] theorem State.popBit_params : (s.popBit).params = s.params := rfl

/-! popInput -/
@[simp] theorem State.popInput_lineDrive : (s.popInput).lineDrive = s.lineDrive := rfl
@[simp] theorem State.popInput_txnState : (s.popInput).txnState = s.txnState := rfl
@[simp] theorem State.popInput_errVariant : (s.popInput).errVariant = s.errVariant := rfl
@[simp] theorem State.popInput_pollCnt : (s.popInput).pollCnt = s.pollCnt := rfl
@[simp] theorem State.popInput_spIdx : (s.popInput).spIdx = s.spIdx := rfl
@[simp] theorem State.popInput_sp : (s.popInput).sp = s.sp := rfl
@[simp] theorem State.popInput_tempHi : (s.popInput).tempHi = s.tempHi := rfl
@[simp] theorem State.popInput_tempLo : (s.popInput).tempLo = s.tempLo := rfl
@[simp] theorem State.popInput_crcAcc : (s.popInput).crcAcc = s.crcAcc := rfl
@[simp] theorem State.popInput_trace : (s.popInput).trace = s.trace := rfl
@[simp] theorem State.popInput_responses : (s.popInput).responses = s.responses := rfl
@[simp] theorem State.popInput_inputs : (s.popInput).inputs = s.inputs.tail := rfl
@[simp] theorem State.popInput_presenceIn : (s.popInput).presenceIn = s.presenceIn := rfl
@[simp] theorem State.popInput_bitIn : (s.popInput).bitIn = s.bitIn := rfl
@[simp] theorem State.popInput_params : (s.popInput).params = s.params := rfl

/-! respond -/
@[simp] theorem State.respond_lineDrive (f : RspFields) : (s.respond f).lineDrive = s.lineDrive := rfl
@[simp] theorem State.respond_txnState (f : RspFields) : (s.respond f).txnState = s.txnState := rfl
@[simp] theorem State.respond_errVariant (f : RspFields) : (s.respond f).errVariant = s.errVariant := rfl
@[simp] theorem State.respond_pollCnt (f : RspFields) : (s.respond f).pollCnt = s.pollCnt := rfl
@[simp] theorem State.respond_spIdx (f : RspFields) : (s.respond f).spIdx = s.spIdx := rfl
@[simp] theorem State.respond_sp (f : RspFields) : (s.respond f).sp = s.sp := rfl
@[simp] theorem State.respond_tempHi (f : RspFields) : (s.respond f).tempHi = s.tempHi := rfl
@[simp] theorem State.respond_tempLo (f : RspFields) : (s.respond f).tempLo = s.tempLo := rfl
@[simp] theorem State.respond_crcAcc (f : RspFields) : (s.respond f).crcAcc = s.crcAcc := rfl
@[simp] theorem State.respond_trace (f : RspFields) : (s.respond f).trace = s.trace := rfl
@[simp] theorem State.respond_responses (f : RspFields) : (s.respond f).responses = s.responses ++ [rspWord f s.txnState s.errVariant] := rfl
@[simp] theorem State.respond_inputs (f : RspFields) : (s.respond f).inputs = s.inputs := rfl
@[simp] theorem State.respond_presenceIn (f : RspFields) : (s.respond f).presenceIn = s.presenceIn := rfl
@[simp] theorem State.respond_bitIn (f : RspFields) : (s.respond f).bitIn = s.bitIn := rfl
@[simp] theorem State.respond_params (f : RspFields) : (s.respond f).params = s.params := rfl
@[simp] theorem State.respond_spRead (f : RspFields) (i : Nat) : (s.respond f).spRead i = s.spRead i := rfl

/-! reject -/
@[simp] theorem State.reject_lineDrive (st : Status) : (s.reject st).lineDrive = s.lineDrive := rfl
@[simp] theorem State.reject_txnState (st : Status) : (s.reject st).txnState = s.txnState := rfl
@[simp] theorem State.reject_errVariant (st : Status) : (s.reject st).errVariant = s.errVariant := rfl
@[simp] theorem State.reject_pollCnt (st : Status) : (s.reject st).pollCnt = s.pollCnt := rfl
@[simp] theorem State.reject_spIdx (st : Status) : (s.reject st).spIdx = s.spIdx := rfl
@[simp] theorem State.reject_sp (st : Status) : (s.reject st).sp = s.sp := rfl
@[simp] theorem State.reject_tempHi (st : Status) : (s.reject st).tempHi = s.tempHi := rfl
@[simp] theorem State.reject_tempLo (st : Status) : (s.reject st).tempLo = s.tempLo := rfl
@[simp] theorem State.reject_crcAcc (st : Status) : (s.reject st).crcAcc = s.crcAcc := rfl
@[simp] theorem State.reject_trace (st : Status) : (s.reject st).trace = s.trace := rfl
@[simp] theorem State.reject_responses (st : Status) : (s.reject st).responses =
    s.responses ++ [rspWord { status := st } s.txnState s.errVariant] := rfl
@[simp] theorem State.reject_inputs (st : Status) : (s.reject st).inputs = s.inputs := rfl
@[simp] theorem State.reject_presenceIn (st : Status) : (s.reject st).presenceIn = s.presenceIn := rfl
@[simp] theorem State.reject_bitIn (st : Status) : (s.reject st).bitIn = s.bitIn := rfl
@[simp] theorem State.reject_params (st : Status) : (s.reject st).params = s.params := rfl
@[simp] theorem State.reject_spRead (st : Status) (i : Nat) : (s.reject st).spRead i = s.spRead i := rfl

/-! enterError -/
@[simp] theorem State.enterError_lineDrive (v : ErrVariant) : (s.enterError v).lineDrive = s.lineDrive := rfl
@[simp] theorem State.enterError_txnState (v : ErrVariant) : (s.enterError v).txnState = .err := rfl
@[simp] theorem State.enterError_errVariant (v : ErrVariant) : (s.enterError v).errVariant = v := rfl
@[simp] theorem State.enterError_pollCnt (v : ErrVariant) : (s.enterError v).pollCnt = s.pollCnt := rfl
@[simp] theorem State.enterError_spIdx (v : ErrVariant) : (s.enterError v).spIdx = s.spIdx := rfl
@[simp] theorem State.enterError_sp (v : ErrVariant) : (s.enterError v).sp = s.sp := rfl
@[simp] theorem State.enterError_tempHi (v : ErrVariant) : (s.enterError v).tempHi = (sentinel v).1 := rfl
@[simp] theorem State.enterError_tempLo (v : ErrVariant) : (s.enterError v).tempLo = (sentinel v).2 := rfl
@[simp] theorem State.enterError_crcAcc (v : ErrVariant) : (s.enterError v).crcAcc = s.crcAcc := rfl
@[simp] theorem State.enterError_trace (v : ErrVariant) : (s.enterError v).trace = s.trace := rfl
@[simp] theorem State.enterError_responses (v : ErrVariant) : (s.enterError v).responses =
    s.responses ++ [rspWord { done := true, data1 := (sentinel v).1, data0 := (sentinel v).2 } .err v] := rfl
@[simp] theorem State.enterError_inputs (v : ErrVariant) : (s.enterError v).inputs = s.inputs := rfl
@[simp] theorem State.enterError_presenceIn (v : ErrVariant) : (s.enterError v).presenceIn = s.presenceIn := rfl
@[simp] theorem State.enterError_bitIn (v : ErrVariant) : (s.enterError v).bitIn = s.bitIn := rfl
@[simp] theorem State.enterError_params (v : ErrVariant) : (s.enterError v).params = s.params := rfl

/-! blockReset -/
@[simp] theorem State.blockReset_lineDrive : (s.blockReset).lineDrive = .released := rfl
@[simp] theorem State.blockReset_txnState : (s.blockReset).txnState = .idle := rfl
@[simp] theorem State.blockReset_errVariant : (s.blockReset).errVariant = .noError := rfl
@[simp] theorem State.blockReset_pollCnt : (s.blockReset).pollCnt = 0 := rfl
@[simp] theorem State.blockReset_spIdx : (s.blockReset).spIdx = 0 := rfl
@[simp] theorem State.blockReset_sp : (s.blockReset).sp = [] := rfl
@[simp] theorem State.blockReset_tempHi : (s.blockReset).tempHi = 0 := rfl
@[simp] theorem State.blockReset_tempLo : (s.blockReset).tempLo = 0 := rfl
@[simp] theorem State.blockReset_crcAcc : (s.blockReset).crcAcc = 0 := rfl
@[simp] theorem State.blockReset_trace : (s.blockReset).trace = s.trace := rfl
@[simp] theorem State.blockReset_responses : (s.blockReset).responses = s.responses := rfl
@[simp] theorem State.blockReset_inputs : (s.blockReset).inputs = s.inputs := rfl
@[simp] theorem State.blockReset_presenceIn : (s.blockReset).presenceIn = s.presenceIn := rfl
@[simp] theorem State.blockReset_bitIn : (s.blockReset).bitIn = s.bitIn := rfl
@[simp] theorem State.blockReset_params : (s.blockReset).params = s.params := rfl

/-! offerWord -/
@[simp] theorem State.offerWord_lineDrive (w : CmdWord) : (s.offerWord w).lineDrive = s.lineDrive := rfl
@[simp] theorem State.offerWord_txnState (w : CmdWord) : (s.offerWord w).txnState = s.txnState := rfl
@[simp] theorem State.offerWord_errVariant (w : CmdWord) : (s.offerWord w).errVariant = s.errVariant := rfl
@[simp] theorem State.offerWord_pollCnt (w : CmdWord) : (s.offerWord w).pollCnt = s.pollCnt := rfl
@[simp] theorem State.offerWord_spIdx (w : CmdWord) : (s.offerWord w).spIdx = s.spIdx := rfl
@[simp] theorem State.offerWord_sp (w : CmdWord) : (s.offerWord w).sp = s.sp := rfl
@[simp] theorem State.offerWord_tempHi (w : CmdWord) : (s.offerWord w).tempHi = s.tempHi := rfl
@[simp] theorem State.offerWord_tempLo (w : CmdWord) : (s.offerWord w).tempLo = s.tempLo := rfl
@[simp] theorem State.offerWord_crcAcc (w : CmdWord) : (s.offerWord w).crcAcc = s.crcAcc := rfl
@[simp] theorem State.offerWord_trace (w : CmdWord) : (s.offerWord w).trace = s.trace := rfl
@[simp] theorem State.offerWord_responses (w : CmdWord) : (s.offerWord w).responses = s.responses := rfl
@[simp] theorem State.offerWord_inputs (w : CmdWord) : (s.offerWord w).inputs = ⟨false, some w⟩ :: s.inputs := rfl
@[simp] theorem State.offerWord_presenceIn (w : CmdWord) : (s.offerWord w).presenceIn = s.presenceIn := rfl
@[simp] theorem State.offerWord_bitIn (w : CmdWord) : (s.offerWord w).bitIn = s.bitIn := rfl
@[simp] theorem State.offerWord_params (w : CmdWord) : (s.offerWord w).params = s.params := rfl

end Sys2Proof.Machine
end

