-- ==== Sys2Proof/Laws/Scratchpad.lean ====
section
/-! SUPPORT. The scratchpad's storage: what a write leaves at every address, and that it keeps the canonical form. -/

namespace Sys2Proof.Machine

theorem Memory.read_write_same (m : Memory) (a : Nat) (v : Byte) : (m.write a v).read a = some v := by
  induction m with
  | nil => simp [Memory.write, Memory.read]
  | cons c rest ih =>
    unfold Memory.write
    split
    · next h => simp [Memory.read, ih, show c.1 ≠ a by omega]
    · split <;> simp [Memory.read]

theorem Memory.read_write_other (m : Memory) (a b : Nat) (v : Byte) (h : b ≠ a) :
    (m.write a v).read b = m.read b := by
  have hab : ¬ a = b := fun e => h e.symm
  induction m with
  | nil => simp [Memory.write, Memory.read, hab]
  | cons c rest ih =>
    unfold Memory.write
    split
    · simp only [Memory.read, ih]
    · split
      · next h' => subst h'; simp [Memory.read, hab]
      · simp [Memory.read, hab]

/-- A write at an address gives every address its value. -/
@[simp] theorem Memory.read_write (m : Memory) (a b : Nat) (v : Byte) :
    (m.write a v).read b = if b = a then some v else m.read b := by
  split
  · next h => subst h; exact m.read_write_same b v
  · next h => exact m.read_write_other a b v h

theorem Memory.mem_write (m : Memory) (a : Nat) (v : Byte) {c : Host.Cell} (h : c ∈ m.write a v) :
    c = (a, v) ∨ c ∈ m := by
  induction m with
  | nil => simpa [Memory.write] using h
  | cons d rest ih =>
    unfold Memory.write at h
    split at h
    · rcases List.mem_cons.mp h with rfl | h
      · exact .inr (by simp)
      · rcases ih h with h | h
        · exact .inl h
        · exact .inr (by simp [h])
    · split at h
      · rcases List.mem_cons.mp h with h | h
        · exact .inl h
        · exact .inr (by simp [h])
      · rcases List.mem_cons.mp h with h | h
        · exact .inl h
        · exact .inr h

/-- Every write to SP[0..8] keeps the canonical form. -/
theorem Memory.write_wf {m : Memory} (h : m.wf) {a : Nat} (ha : a < Config.spLen) (v : Byte) :
    (m.write a v).wf := by
  refine ⟨?_, fun c hc => ?_⟩
  · obtain ⟨hp, -⟩ := h
    induction m with
    | nil => simp [Memory.write]
    | cons c rest ih =>
      obtain ⟨hc, hr⟩ := List.pairwise_cons.mp hp
      unfold Memory.write
      split
      · next hlt =>
        refine List.pairwise_cons.mpr ⟨fun d hd => ?_, ih hr⟩
        rcases Memory.mem_write rest a v hd with rfl | hd
        · exact hlt
        · exact hc d hd
      · split
        · next hge he => exact List.pairwise_cons.mpr ⟨fun d hd => he ▸ hc d hd, hr⟩
        · next hge hne =>
          refine List.pairwise_cons.mpr ⟨fun d hd => ?_, hp⟩
          rcases List.mem_cons.mp hd with rfl | hd
          · show a < d.1
            omega
          · have := hc d hd
            show a < d.1
            omega
  · rcases m.mem_write a v hc with rfl | hc
    · exact ha
    · exact h.2 c hc

/-- In canonical form the storage is determined by what every address reads as. -/
theorem Memory.read_of_mem {m : Memory} (h : m.wf) {c : Host.Cell} (hc : c ∈ m) : m.read c.1 = some c.2 := by
  obtain ⟨hp, -⟩ := h
  induction m with
  | nil => simp at hc
  | cons d rest ih =>
    obtain ⟨hd, hr⟩ := List.pairwise_cons.mp hp
    rcases List.mem_cons.mp hc with rfl | hc
    · simp [Memory.read]
    · have := hd c hc
      simp [Memory.read, show d.1 ≠ c.1 by omega, ih hc hr]

@[simp] theorem State.spWrite_read (s : State) (i j : Nat) (v : Byte) :
    (s.spWrite i v).spRead j = if j = i then some v else s.spRead j := by
  simp [State.spRead, State.spWrite]

/-- The first n bytes are all there exactly when each has been written. -/
theorem State.spPrefix_isSome (s : State) (n : Nat) :
    (s.spPrefix n).isSome = true ↔ ∀ i, i < n → s.spW i = true := by
  induction n with
  | zero => simp [State.spPrefix]
  | succ n ih =>
    have key : (s.spPrefix (n + 1)).isSome = ((s.spPrefix n).isSome && s.spW n) := by
      simp only [State.spPrefix, State.spW]
      cases s.spPrefix n <;> cases s.spRead n <;> rfl
    rw [key, Bool.and_eq_true, ih]
    constructor
    · rintro ⟨h, hn⟩ i hi
      rcases Nat.lt_succ_iff_lt_or_eq.mp hi with hi | rfl
      · exact h i hi
      · exact hn
    · exact fun h => ⟨fun i hi => h i (by omega), h n (by omega)⟩

/-- The first n bytes, in order, are what their addresses read as. -/
theorem State.spPrefix_spec (s : State) {n : Nat} {l : List Byte} (h : s.spPrefix n = some l) :
    l.length = n ∧ ∀ i, i < n → s.spRead i = l[i]? := by
  induction n generalizing l with
  | zero => simp only [State.spPrefix, Option.some.injEq] at h; subst h; simp
  | succ n ih =>
    simp only [State.spPrefix] at h
    split at h
    · next l' v hl hv =>
      obtain ⟨hlen, hget⟩ := ih hl
      cases h
      refine ⟨by simp [hlen], fun i hi => ?_⟩
      rcases Nat.lt_succ_iff_lt_or_eq.mp hi with hi | rfl
      · rw [hget i hi, List.getElem?_append_left (by omega)]
      · rw [hv, List.getElem?_append_right (by omega)]; simp [hlen]
    · cases h

end Sys2Proof.Machine
end

