-- ==== Sys2Proof/Laws/Ops.lean ====
section
/-! SUPPORT. For each shared operation, one lemma that says everything it does: a proof cites it and does not
unfold the operation. -/

namespace Sys2Proof.Machine

/-! ### Slots -/

/-- A slot leaves the line released and appends its one event; nothing else. -/
theorem State.perform_eq (s : State) (e : Slot) :
    s.perform e = { s with lineDrive := .released, trace := s.trace ++ [e] } := by
  cases e with
  | reset p => rfl
  | w b => cases b <;> rfl
  | r b => rfl

/-- A reset slot: the answer, the released line, the event, one presence answer used. -/
theorem State.busReset_eq (s : State) :
    s.busReset = (s.presenceAnswer,
      { s with lineDrive := .released, trace := s.trace ++ [.reset s.presenceAnswer],
               presenceIn := s.presenceIn.tail }) := by
  simp [State.busReset, State.perform_eq, State.popPresence]

/-- A write slot. -/
theorem State.slotWrite_eq (s : State) (b : Bool) :
    s.slotWrite b = { s with lineDrive := .released, trace := s.trace ++ [.w b] } := s.perform_eq _

/-- A read slot: the answer, the released line, the event, one bit answer used. -/
theorem State.slotRead_eq (s : State) :
    s.slotRead = (s.bitAnswer,
      { s with lineDrive := .released, trace := s.trace ++ [.r s.bitAnswer], bitIn := s.bitIn.tail }) := by
  simp [State.slotRead, State.perform_eq, State.popBit]

/-! ### Runs of read slots -/

@[simp] theorem sampledBits_length (n : Nat) (q : List Bool) (tr : Trace) :
    (sampledBits n q tr).length = n := by
  induction n generalizing q tr with
  | zero => simp [sampledBits]
  | succ n ih => cases q <;> simp [sampledBits, ih]

@[simp] theorem State.nextBits_length (s : State) (n : Nat) : (s.nextBits n).length = n :=
  sampledBits_length ..

/-- Sampling in two runs is sampling in one. -/
theorem sampledBits_add (m n : Nat) (q : List Bool) (tr : Trace) :
    sampledBits (m + n) q tr =
      sampledBits m q tr ++ sampledBits n (q.drop m) (tr ++ readSlots (sampledBits m q tr)) := by
  induction m generalizing q tr with
  | zero => simp [sampledBits, readSlots]
  | succ m ih =>
    rw [show m + 1 + n = (m + n) + 1 by omega]
    cases q with
    | nil => simp [sampledBits, ih, readSlots]
    | cons b q => simp [sampledBits, ih, readSlots]

/-- While answers are at hand, the samples are those answers. -/
theorem sampledBits_of_answers (l rest : List Bool) (tr : Trace) :
    sampledBits l.length (l ++ rest) tr = l := by
  induction l generalizing tr with
  | nil => simp [sampledBits]
  | cons b l ih => simp [sampledBits, ih]

/-- The next samples of a machine whose next answers are at hand. -/
theorem State.nextBits_of_answers (s : State) (l rest : List Bool) {n : Nat} (hn : n = l.length)
    (h : s.bitIn = l ++ rest) : s.nextBits n = l := by
  subst hn
  rw [State.nextBits, h, sampledBits_of_answers]

theorem State.nextBits_one (s : State) : s.nextBits 1 = [s.bitAnswer] := by
  unfold State.nextBits State.bitAnswer
  cases s.bitIn <;> rfl

theorem State.slotRead_afterReads (s : State) : s.slotRead.2 = s.afterReads 1 := by
  simp [State.slotRead_eq, State.afterReads, State.nextBits_one, readSlots]

theorem State.nextBits_add (s : State) (m n : Nat) :
    s.nextBits (m + n) = s.nextBits m ++ (s.afterReads m).nextBits n :=
  sampledBits_add ..

theorem State.afterReads_add (s : State) (m n : Nat) :
    (s.afterReads m).afterReads n = s.afterReads (m + n) := by
  have h := s.nextBits_add m n
  simp only [State.afterReads, h]
  simp [readSlots]

theorem byteOfBits_append_loop (l : List Bool) (k : Nat) (v : Byte) :
    (l.zipIdx k).foldl (fun v (bk : Bool × Nat) => v ||| (zext8 bk.1 <<< bk.2)) v
      = v ||| (byteOfBits l <<< k) := by
  induction l generalizing k v with
  | nil => simp [byteOfBits]
  | cons b l ih =>
    simp only [List.zipIdx_cons, List.foldl_cons, ih, byteOfBits]
    rw [BitVec.or_assoc]
    congr 1
    have hs : byteOfBits l <<< 1 <<< k = byteOfBits l <<< (k + 1) := by
      rw [← BitVec.shiftLeft_add, Nat.add_comm]
    rw [BitVec.shiftLeft_or_distrib, hs, BitVec.or_comm]

/-- R121's loop: `fuel` slots, each bit at its place. -/
theorem State.readByteFrom_eq (s : State) (k : Nat) (v : Byte) (fuel : Nat) :
    s.readByteFrom k v (fuel + 1) =
      (((s.nextBits (fuel + 1)).zipIdx k).foldl (fun v (bk : Bool × Nat) => v ||| (zext8 bk.1 <<< bk.2)) v,
        s.afterReads (fuel + 1)) := by
  induction fuel generalizing s k v with
  | zero =>
    simp [State.readByteFrom, State.nextBits_one, State.slotRead_afterReads]
    simp [State.slotRead_eq]
  | succ fuel ih =>
    rw [State.readByteFrom, ih, State.slotRead_afterReads, State.afterReads_add,
      show fuel + 1 + 1 = 1 + (fuel + 1) by omega, State.nextBits_add s 1, State.nextBits_one]
    simp [State.slotRead_eq]

/-- A byte read: the byte of the next eight samples, bit 0 first, and the machine after them. -/
theorem State.readByte_eq (s : State) : s.readByte = (byteOfBits (s.nextBits 8), s.afterReads 8) := by
  rw [State.readByte, State.readByteFrom_eq, byteOfBits_append_loop]
  simp

/-- A byte written: its eight events, bit 0 first, and the line released. -/
theorem State.writeByte_eq (s : State) (d : Byte) :
    s.writeByte d = { s with lineDrive := .released, trace := s.trace ++ writeSlots d } := by
  simp [State.writeByte, writeSlots, bitsOf, List.range, List.range.loop, State.slotWrite_eq]

/-! ### Runs of bytes into the scratchpad -/

@[simp] theorem bytesOfBits_length (l : List Bool) (n : Nat) : (bytesOfBits l n).length = n := by
  induction n generalizing l with
  | zero => rfl
  | succ n ih => simp [bytesOfBits, ih]

@[simp] theorem State.nextBytes_length (s : State) (n : Nat) : (s.nextBytes n).length = n :=
  bytesOfBits_length ..

/-- A run of bytes is its first byte and then the rest. -/
theorem State.nextBytes_succ (s : State) (n : Nat) :
    s.nextBytes (n + 1) = byteOfBits (s.nextBits 8) :: (s.afterReads 8).nextBytes n := by
  have h8 : (s.nextBits 8).length = 8 := s.nextBits_length 8
  rw [State.nextBytes, show 8 * (n + 1) = 8 + 8 * n by omega, State.nextBits_add, bytesOfBits,
    List.take_append_of_le_length (by omega), List.drop_append_of_le_length (by omega),
    List.take_of_length_le (by omega), List.drop_of_length_le (by omega)]
  rfl

@[simp] theorem State.spWrite_nextBits (s : State) (i : Nat) (v : Byte) (n : Nat) :
    (s.spWrite i v).nextBits n = s.nextBits n := rfl

@[simp] theorem State.spWrite_nextBytes (s : State) (i : Nat) (v : Byte) (n : Nat) :
    (s.spWrite i v).nextBytes n = s.nextBytes n := rfl

@[simp] theorem State.afterReads_spRead (s : State) (n i : Nat) : (s.afterReads n).spRead i = s.spRead i := rfl

/-- n bytes read into the scratchpad, from n = 1 on: the reads' events, and the bytes stored. -/
theorem State.readBytesInto_eq (s : State) (a n : Nat) (hn : 0 < n) :
    s.readBytesInto a n =
      { s.afterReads (8 * n) with sp := s.sp.writeAll a (s.nextBytes n) } := by
  induction n generalizing s a with
  | zero => omega
  | succ n ih =>
    rw [State.readBytesInto, State.readByte_eq]
    rcases Nat.eq_zero_or_pos n with rfl | hpos
    · rw [State.nextBytes_succ]
      rfl
    · rw [ih _ _ hpos, State.nextBytes_succ]
      have h : ((s.afterReads 8).spWrite a (byteOfBits (s.nextBits 8))).afterReads (8 * n) =
          { (s.afterReads 8).afterReads (8 * n) with
            sp := ((s.afterReads 8).spWrite a (byteOfBits (s.nextBits 8))).sp } := rfl
      rw [show 8 * (n + 1) = 8 + 8 * n by omega, ← State.afterReads_add]
      simp only [h]
      rfl

@[simp] theorem State.readBytesInto_zero (s : State) (a : Nat) : s.readBytesInto a 0 = s := rfl

/-- What every address reads as after a run of stores. -/
theorem Memory.read_writeAll (m : Memory) (a : Nat) (l : List Byte) (i : Nat) :
    (m.writeAll a l).read i = if a ≤ i ∧ i < a + l.length then l[i - a]? else m.read i := by
  induction l generalizing m a with
  | nil => simp [Memory.writeAll]
  | cons v l ih =>
    rw [Memory.writeAll, ih, Memory.read_write]
    by_cases h1 : a + 1 ≤ i ∧ i < a + 1 + l.length
    · rw [if_pos h1, if_pos (by simp; omega), show i - a = (i - (a + 1)) + 1 by omega]
      simp
    · rw [if_neg h1]
      by_cases h2 : i = a
      · subst h2; simp
      · rw [if_neg h2, if_neg (by simp; omega)]

theorem Memory.writeAll_wf {m : Memory} (h : m.wf) {a : Nat} {l : List Byte}
    (ha : a + l.length ≤ Config.spLen) : (m.writeAll a l).wf := by
  induction l generalizing m a with
  | nil => exact h
  | cons v l ih =>
    simp only [List.length_cons] at ha
    exact ih (Memory.write_wf h (by omega) v) (by omega)

/-- What SP reads as after a run of bytes was read into it. -/
theorem State.readBytesInto_spRead (s : State) (a n i : Nat) :
    (s.readBytesInto a n).spRead i = if a ≤ i ∧ i < a + n then (s.nextBytes n)[i - a]? else s.spRead i := by
  rcases Nat.eq_zero_or_pos n with rfl | hn
  · simp
  · rw [State.readBytesInto_eq s a n hn]
    simp only [State.spRead, Memory.read_writeAll, State.nextBytes_length]

/-! ### The read phase a trace ends with -/

/-- The last place of a slot in a trace is one place. -/
theorem append_cons_inj_of_last {x : Slot} {a b a' b' : Trace} (hb : x ∉ b) (hb' : x ∉ b')
    (h : a ++ x :: b = a' ++ x :: b') : a = a' ∧ b = b' := by
  induction a generalizing a' with
  | nil =>
    cases a' with
    | nil => simpa using h
    | cons e a' => exact absurd (by simp [(List.cons.inj h).2]) hb
  | cons d a ih =>
    cases a' with
    | nil => exact absurd (by simp [← (List.cons.inj h).2]) hb'
    | cons e a' =>
      obtain ⟨rfl, ht⟩ := List.cons.inj h
      obtain ⟨rfl, rfl⟩ := ih ht
      exact ⟨rfl, rfl⟩

/-- A trace that ends with a read phase ends with one only. -/
theorem readPhase_append_inj {a a' : Trace} {l l' : List Bool}
    (h : a ++ readPhase ++ readSlots l = a' ++ readPhase ++ readSlots l') : a = a' ∧ l = l' := by
  have hr : ∀ m : List Bool,
      Slot.reset true ∉ writeSlots cmdSkipRom ++ writeSlots cmdReadScratchpad ++ readSlots m := by
    simp [writeSlots, readSlots]
  simp only [readPhase, List.append_assoc, List.cons_append] at h
  rw [← List.append_assoc (writeSlots _), ← List.append_assoc (writeSlots _)] at h
  obtain ⟨ha, hl⟩ := append_cons_inj_of_last (hr l) (hr l') h
  exact ⟨ha, List.map_injective_iff.mpr (fun _ _ e => Slot.r.inj e) (List.append_cancel_left hl)⟩

/-- A trace whose last read phase carries these bytes keeps the device's contract for them, whatever came before. -/
theorem scratchpadKept_of_lastReadPhase (bytes : List Byte) (before : Trace) :
    ScratchpadKept bytes (before ++ readPhase ++ readSlots (bitsOfBytes bytes)) := by
  intro a l h
  obtain ⟨-, rfl⟩ := readPhase_append_inj h
  simp

/-! ### Ending an operation -/

/-- A response changes nothing but the history of responses. -/
theorem State.respond_eq (s : State) (f : RspFields) :
    s.respond f = { s with responses := s.responses ++ [rspWord f s.txnState s.errVariant] } := rfl

/-- A rejection changes nothing but the history of responses (R200). -/
theorem State.reject_eq (s : State) (st : Status) :
    s.reject st = { s with responses := s.responses ++ [rspWord { status := st } s.txnState s.errVariant] } := rfl

/-- Entering an error: the variant, its sentinel, ERR, and the completing response (R168). -/
theorem State.enterError_eq (s : State) (v : ErrVariant) :
    s.enterError v =
      { s with
        errVariant := v, tempHi := (sentinel v).1, tempLo := (sentinel v).2, txnState := .err
        responses := s.responses ++
          [rspWord { done := true, data1 := (sentinel v).1, data0 := (sentinel v).2 } .err v] } := rfl

theorem State.gated_busy (s : State) (op : State → State) (h : s.txnState.inFlight = true) :
    s.gated op = s.reject .busy := by simp [State.gated, h]

theorem State.gated_free (s : State) (op : State → State) (h : s.txnState.inFlight = false) :
    s.gated op = op s := by simp [State.gated, h]

/-- What a transition has to do, by what stands on the ports. -/
theorem State.event_cases (s : State) :
    (s.event = .quiet ∧ (s.inputs = [] ∨ ∃ rest, s.inputs = ⟨false, none⟩ :: rest)) ∨
    (s.event = .blockReset ∧ ∃ c rest, s.inputs = ⟨true, c⟩ :: rest) ∨
    (∃ w rest, s.event = .word w ∧ s.inputs = ⟨false, some w⟩ :: rest) := by
  unfold State.event
  cases s.inputs with
  | nil => simp
  | cons i rest =>
    obtain ⟨r, c⟩ := i
    cases r <;> cases c <;> simp

end Sys2Proof.Machine
end

