-- ==== Sys2Proof/Laws/PerInstr.lean ====
section
/-! SUPPORT. The family `TableRow`: a well-formed instruction's word is selected by a row of R72's table, and that
row reads the instruction back from it. One lemma per constructor. -/

namespace Sys2Proof.Laws.TableRow

open Sys2Proof.Machine

/-- Some row selects the instruction's word and reads it as this instruction (30_encoding.md R72 to R74). -/
def Statement (i : Instr) : Prop :=
  i.wellFormed = true → ∃ r ∈ opcodeRows, r.selects (encode i) ∧ r.instr (encode i) = i

theorem busReset : Statement .busReset := fun _ =>
  ⟨⟨0x1000, 0xFFFF, 0, 0, fun _ => .busReset⟩, by simp [opcodeRows], ⟨by decide, by decide, by decide⟩, rfl⟩

theorem busWbit (b : Bool) : Statement (.busWbit b) := fun _ =>
  ⟨⟨0x2000, 0xFFFE, 0, 0, fun w => .busWbit (w.getLsbD 0)⟩, by simp [opcodeRows],
    by cases b <;> exact ⟨by decide, by decide, by decide⟩, by cases b <;> rfl⟩

theorem busRbit : Statement .busRbit := fun _ =>
  ⟨⟨0x3000, 0xFFFF, 0, 0, fun _ => .busRbit⟩, by simp [opcodeRows], ⟨by decide, by decide, by decide⟩, rfl⟩

theorem busWbyte (d : Byte) : Statement (.busWbyte d) := fun _ =>
  ⟨⟨0x4000, 0xFF00, 0, 0, fun w => .busWbyte (w.setWidth 8)⟩, by simp [opcodeRows],
    by revert d; decide, by revert d; decide⟩

theorem busRbyte : Statement .busRbyte := fun _ =>
  ⟨⟨0x5000, 0xFFFF, 0, 0, fun _ => .busRbyte⟩, by simp [opcodeRows], ⟨by decide, by decide, by decide⟩, rfl⟩

theorem busRbytes (n : BitVec 4) : Statement (.busRbytes n) := fun h =>
  ⟨⟨0x6000, 0xF0FF, 1, 9, fun w => .busRbytes ((w >>> 8).setWidth 4)⟩, by simp [opcodeRows],
    by revert n; decide, by revert n; decide⟩

theorem spRd (i : BitVec 4) : Statement (.spRd i) := fun h =>
  ⟨⟨0x7000, 0xF0FF, 0, 8, fun w => .spRd ((w >>> 8).setWidth 4)⟩, by simp [opcodeRows],
    by revert i; decide, by revert i; decide⟩

theorem crcClr : Statement .crcClr := fun _ =>
  ⟨⟨0x8000, 0xFFFF, 0, 0, fun _ => .crcClr⟩, by simp [opcodeRows], ⟨by decide, by decide, by decide⟩, rfl⟩

theorem crcUpd (d : Byte) : Statement (.crcUpd d) := fun _ =>
  ⟨⟨0x9000, 0xFF00, 0, 0, fun w => .crcUpd (w.setWidth 8)⟩, by simp [opcodeRows],
    by revert d; decide, by revert d; decide⟩

theorem crcBuf (n : BitVec 4) : Statement (.crcBuf n) := fun h =>
  ⟨⟨0xA000, 0xF0FF, 1, 9, fun w => .crcBuf ((w >>> 8).setWidth 4)⟩, by simp [opcodeRows],
    by revert n; decide, by revert n; decide⟩

theorem txnStart : Statement .txnStart := fun _ =>
  ⟨⟨0xB000, 0xFFFF, 0, 0, fun _ => .txnStart⟩, by simp [opcodeRows], ⟨by decide, by decide, by decide⟩, rfl⟩

theorem txnStep : Statement .txnStep := fun _ =>
  ⟨⟨0xC000, 0xFFFF, 0, 0, fun _ => .txnStep⟩, by simp [opcodeRows], ⟨by decide, by decide, by decide⟩, rfl⟩

theorem txnAbort : Statement .txnAbort := fun _ =>
  ⟨⟨0xD000, 0xFFFF, 0, 0, fun _ => .txnAbort⟩, by simp [opcodeRows], ⟨by decide, by decide, by decide⟩, rfl⟩

theorem txnStatus : Statement .txnStatus := fun _ =>
  ⟨⟨0xE000, 0xFFFF, 0, 0, fun _ => .txnStatus⟩, by simp [opcodeRows], ⟨by decide, by decide, by decide⟩, rfl⟩

end Sys2Proof.Laws.TableRow
end

