-- ==== Sys2Proof/Laws/Response.lean ====
section
/-! SUPPORT. The response word as a number: its fields' values at their weights (30_encoding.md R77). -/

namespace Sys2Proof.Machine

/-- The field widths as bounds. -/
theorem rspFields_lt (f : RspFields) (ts : TxnState) (ev : ErrVariant) :
    f.status.code.toNat < 3 ∧ f.presence.toNat < 2 ∧ f.done.toNat < 2 ∧ ev.code.toNat < 4 ∧ ts.code.toNat < 7 ∧
      f.data1.toNat < 256 ∧ f.data0.toNat < 256 := by
  refine ⟨?_, f.presence.toNat_lt, f.done.toNat_lt, ev.code.isLt, ?_, f.data1.isLt, f.data0.isLt⟩
  · cases f.status <;> decide
  · cases ts <;> decide

/-- Every field at its weight, nothing else in the word. -/
theorem rspWord_toNat (f : RspFields) (ts : TxnState) (ev : ErrVariant) :
    (rspWord f ts ev).toNat =
      f.status.code.toNat * 2 ^ 24 + f.presence.toNat * 2 ^ 23 + f.done.toNat * 2 ^ 22 +
        ev.code.toNat * 2 ^ 20 + ts.code.toNat * 2 ^ 16 + f.data1.toNat * 2 ^ 8 + f.data0.toNat := by
  obtain ⟨h1, h2, h3, h4, h5, h6, h7⟩ := rspFields_lt f ts ev
  simp only [rspWord, BitVec.toNat_append, BitVec.toNat_ofBool]
  generalize f.status.code.toNat = a at *
  generalize f.presence.toNat = b at *
  generalize f.done.toNat = c at *
  generalize ev.code.toNat = d at *
  generalize ts.code.toNat = e at *
  generalize f.data1.toNat = g at *
  generalize f.data0.toNat = h at *
  rw [← Nat.shiftLeft_add_eq_or_of_lt (by omega), ← Nat.shiftLeft_add_eq_or_of_lt (by omega),
    ← Nat.shiftLeft_add_eq_or_of_lt (by omega), ← Nat.shiftLeft_add_eq_or_of_lt (by simp),
    ← Nat.shiftLeft_add_eq_or_of_lt (by omega), ← Nat.shiftLeft_add_eq_or_of_lt (by omega),
    ← Nat.shiftLeft_add_eq_or_of_lt (by omega), ← Nat.shiftLeft_add_eq_or_of_lt (by omega)]
  simp only [Nat.shiftLeft_eq, BitVec.toNat_ofNat, Nat.zero_mod]
  omega

end Sys2Proof.Machine
end

