-- ==== Sys2Proof/Laws/Step.lean ====
section
/-! SUPPORT. Everything one transition can do, and where a command's answer comes from: a proof about `step`
cites these and does not unfold it. -/

namespace Sys2Proof.Machine

/-- A next state comes from idle ports, a block reset, an ILLEGAL word, or a decoded instruction. -/
theorem step_next_cases {s t : State} (h : step s = .next t) :
    (t = s.popInput ∧ (s.inputs = [] ∨ ∃ rest, s.inputs = ⟨false, none⟩ :: rest)) ∨
    (t = s.popInput.blockReset ∧ ∃ c rest, s.inputs = ⟨true, c⟩ :: rest) ∨
    ∃ w rest, s.inputs = ⟨false, some w⟩ :: rest ∧
      ((∃ e, decode w = .error e ∧ t = s.popInput.reject .illegal) ∨
        ∃ i, decode w = .ok i ∧ exec i s.popInput = .next t) := by
  rcases s.event_cases with ⟨he, hi⟩ | ⟨he, hi⟩ | ⟨w, rest, he, hi⟩ <;> simp only [step, he] at h
  · cases h; exact .inl ⟨rfl, hi⟩
  · cases h; exact .inr (.inl ⟨rfl, hi⟩)
  · refine .inr (.inr ⟨w, rest, hi, ?_⟩)
    cases hd : decode w with
    | error e => rw [hd] at h; cases h; exact .inl ⟨e, rfl, rfl⟩
    | ok i => rw [hd] at h; exact .inr ⟨i, rfl, h⟩

/-- A command word at the head of the ports: the decoder's answer decides. -/
theorem step_of_word {s : State} {w : CmdWord} {rest : List Input} (h : s.inputs = ⟨false, some w⟩ :: rest) :
    step s =
      match decode w with
      | .ok i => exec i { s with inputs := rest }
      | .error _ => .next (State.reject .illegal { s with inputs := rest }) := by
  have hp : s.popInput = { s with inputs := rest } := by simp [State.popInput, h]
  simp only [step, State.event, h, hp]
  rfl

end Sys2Proof.Machine
end

