-- ==== Sys2Proof/Tests/Slice0.lean ====
section
/-! SUPPORT. The model's own tests: expected values from 30_encoding.md R94 and 95_test_vectors.md (each test names
its vector), and a witness that meets the hypotheses of every statement that has some. -/

namespace Sys2Proof.Tests

open Sys2Proof Sys2Proof.Machine

/-! ### Helpers -/

/-- A machine after reset with the parameters of 95_test_vectors.md's programs. -/
def base : State := { State.reset with params := ⟨9, none⟩ }

/-- The next state of an outcome. -/
def nextOf (o : Host.Outcome State Fault Refusal) : Option State :=
  match o with
  | .next t => some t
  | .fault _ => none
  | .refused _ => none

/-- The slots and the last response a command leaves, where it gives a next state. -/
def seen (o : Host.Outcome State Fault Refusal) : Option (Trace × Option RspWord) :=
  (nextOf o).map fun t => (t.trace, t.responses.getLast?)

/-- The command word stands on the port of a machine. -/
def offer (s : State) (w : CmdWord) : State := s.offerWord w

/-- The nine bytes of 95_test_vectors.md program P2. -/
def bytesP2 : List Byte := [0x50, 0x05, 0x4B, 0x46, 0x7F, 0xFF, 0x0C, 0x10, 0x1C]

/-- Those bytes as the scratchpad's storage. -/
def spP2 : Memory :=
  [(0, 0x50), (1, 0x05), (2, 0x4B), (3, 0x46), (4, 0x7F), (5, 0xFF), (6, 0x0C), (7, 0x10), (8, 0x1C)]

/-- In APC, the sensor's answers those of program P2 with two busy polls. -/
def apc : State :=
  { base with
    txnState := .apc
    presenceIn := [true, true]
    bitIn := [false, false, true] ++ bitsOfBytes bytesP2 }

/-- In WCD after one busy poll. -/
def wcd : State :=
  { base with txnState := .wcd, pollCnt := 1, trace := convertPhase ++ readSlots [false], bitIn := [false] }

/-- In APR after one busy poll. -/
def apr : State :=
  { base with
    txnState := .apr, pollCnt := 1, trace := convertPhase ++ readSlots [false, true], presenceIn := [true] }

/-- In RSP with the first four bytes of P2 read, the other five to come. -/
def rsp : State :=
  { base with
    txnState := .rsp
    spIdx := 4
    sp := spP2.take 4
    trace := readPhase ++ readSlots (bitsOfBytes (bytesP2.take 4))
    bitIn := bitsOfBytes (bytesP2.drop 4) }

/-- In RSP before the first byte. -/
def rspStart : State :=
  { base with txnState := .rsp, trace := readPhase, bitIn := bitsOfBytes bytesP2 }

/-- In RSP before the ninth byte. -/
def rspLast : State :=
  { base with
    txnState := .rsp, spIdx := 8, sp := spP2.take 8
    trace := readPhase ++ readSlots (bitsOfBytes (bytesP2.take 8))
    bitIn := bitsOfBytes (bytesP2.drop 8) }

/-- In DONE with the result of P2. -/
def done : State := { base with txnState := .done, spIdx := 9, sp := spP2, tempHi := 0x55, tempLo := 0x00 }

/-- In ERR, variant B. -/
def err : State := { base with txnState := .err, errVariant := .b, tempHi := 0xFF, tempLo := 0xFE }

/-! ### WellFormed: each check refuses an ill-formed term (R73) -/

theorem test_wf_rbytes_low : (Instr.busRbytes 0).wellFormed = false := by decide
theorem test_wf_rbytes_high : (Instr.busRbytes 10).wellFormed = false := by decide
theorem test_wf_spRd_high : (Instr.spRd 9).wellFormed = false := by decide
theorem test_wf_crcBuf_low : (Instr.crcBuf 0).wellFormed = false := by decide
theorem test_wf_crcBuf_high : (Instr.crcBuf 10).wellFormed = false := by decide
theorem test_wf_ends : (Instr.busRbytes 1).wellFormed = true ∧ (Instr.busRbytes 9).wellFormed = true ∧
    (Instr.spRd 0).wellFormed = true ∧ (Instr.spRd 8).wellFormed = true ∧
    (Instr.crcBuf 1).wellFormed = true ∧ (Instr.crcBuf 9).wellFormed = true := by decide

/-! ### Decoding: words written out from R71's and R72's tables (vectors E1 to E15) -/

theorem test_decode_busReset : decode 0b0001_0000_00000000 = .ok .busReset := by decide
theorem test_decode_busWbit1 : decode 0b0010_0000_00000001 = .ok (.busWbit true) := by decide
theorem test_decode_busWbit0 : decode 0b0010_0000_00000000 = .ok (.busWbit false) := by decide
theorem test_decode_busRbit : decode 0b0011_0000_00000000 = .ok .busRbit := by decide
theorem test_decode_busWbyte : decode 0b0100_0000_10100101 = .ok (.busWbyte 0xA5) := by decide
theorem test_decode_busRbyte : decode 0b0101_0000_00000000 = .ok .busRbyte := by decide
theorem test_decode_busRbytes : decode 0b0110_1001_00000000 = .ok (.busRbytes 9) := by decide
theorem test_decode_spRd : decode 0b0111_1000_00000000 = .ok (.spRd 8) := by decide
theorem test_decode_crcClr : decode 0b1000_0000_00000000 = .ok .crcClr := by decide
theorem test_decode_crcUpd : decode 0b1001_0000_11111111 = .ok (.crcUpd 0xFF) := by decide
theorem test_decode_crcBuf : decode 0b1010_0001_00000000 = .ok (.crcBuf 1) := by decide
theorem test_decode_txnStart : decode 0b1011_0000_00000000 = .ok .txnStart := by decide
theorem test_decode_txnStep : decode 0b1100_0000_00000000 = .ok .txnStep := by decide
theorem test_decode_txnAbort : decode 0b1101_0000_00000000 = .ok .txnAbort := by decide
theorem test_decode_txnStatus : decode 0b1110_0000_00000000 = .ok .txnStatus := by decide
theorem test_decode_reserved : decode 0x0FFF = .error .reservedOp ∧ decode 0xFFFF = .error .reservedOp := by decide
theorem test_decode_mustBeZero : decode 0x2002 = .error .mustBeZero ∧ decode 0x4100 = .error .mustBeZero ∧
    decode 0x6901 = .error .mustBeZero ∧ decode 0xC001 = .error .mustBeZero := by decide
theorem test_decode_range : decode 0x6000 = .error .operandRange ∧ decode 0x6F00 = .error .operandRange ∧
    decode 0x7900 = .error .operandRange ∧ decode 0xAA00 = .error .operandRange := by decide

theorem test_encode : encode (.busWbyte 0xCC) = 0x40CC ∧ encode (.busRbytes 8) = 0x6800 ∧
    encode (.spRd 1) = 0x7100 ∧ encode (.crcBuf 9) = 0xA900 := by decide

theorem test_decodeTableWord : decodeTableWord 16 0x7300 = some (.spRd 3) ∧ decodeTableWord 16 0xF000 = none := by
  decide

/-- No two rows of R72's table share a word: where both masks look, the patterns differ. -/
theorem test_rows_disjoint : opcodeRows.Pairwise fun r q => r.pattern &&& q.mask &&& r.mask ≠
    q.pattern &&& r.mask &&& q.mask := by decide

/-! ### One step of each command -/

/-- Vector B1. -/
theorem test_busReset : seen (exec .busReset { base with presenceIn := [true] }) =
    some ([.reset true], some 0x00800000) := by decide
/-- Vector B8. -/
theorem test_busReset_busy : seen (exec .busReset { base with txnState := .apc, presenceIn := [true] }) =
    some ([], some 0x02010000) := by decide
/-- Vector B3. -/
theorem test_busWbit : seen (exec (.busWbit true) base) = some ([.w true], some 0) := by decide
/-- Vector B5. -/
theorem test_busRbit : seen (exec .busRbit { base with bitIn := [true] }) = some ([.r true], some 1) := by decide
/-- Vector B10. -/
theorem test_busRbit_busy : seen (exec .busRbit { base with txnState := .rsp }) = some ([], some 0x02040000) := by
  decide
/-- Vector Y1. -/
theorem test_busWbyte : (nextOf (exec (.busWbyte 0xCC) base)).map (fun t => t.trace) =
    some [.w false, .w false, .w true, .w true, .w false, .w false, .w true, .w true] := by decide
/-- Vector Y6. -/
theorem test_busRbyte :
    (nextOf (exec .busRbyte { base with bitIn := [false, false, false, false, true, false, true, false] })).map
      (fun t => (t.responses, t.sp)) = some ([0x00000050], []) := by decide
/-- Vector Y9. -/
theorem test_busRbyte_done :
    (nextOf (exec .busRbyte { done with bitIn := [true, false, true, false, false, true, false, true] })).map
      (fun t => t.responses) = some [0x000500A5] := by decide
/-- Vector Y10. -/
theorem test_busRbytes : (nextOf (exec (.busRbytes 9) { base with bitIn := bitsOfBytes bytesP2 })).map
    (fun t => (t.sp, t.trace.length)) = some (spP2, 72) := by decide +kernel
/-- Vector Y11. -/
theorem test_busRbytes_one : (nextOf (exec (.busRbytes 1) { base with bitIn := bitsOf 0x33 })).map
    (fun t => t.sp) = some [(0, 0x33)] := by decide
/-- Vector Y14. -/
theorem test_spRd : seen (exec (.spRd 8) { base with sp := spP2 }) = some ([], some 0x0000001C) := by decide
/-- Vector Y13. -/
theorem test_spRd_unwritten : exec (.spRd 1) { base with sp := [(0, 0x33)] } = .fault .unwrittenScratchpadRead := rfl
/-- R143, with a CRC_ACC to clear. -/
theorem test_crcClr : (nextOf (exec .crcClr { base with crcAcc := 0xBC })).map
    (fun t => (t.crcAcc, t.responses)) = some (0, [0]) := by decide
/-- Vector K3. -/
theorem test_crcUpd : (nextOf (exec (.crcUpd 0x1C) { base with crcAcc := 0xBC })).map
    (fun t => (t.crcAcc, t.responses)) = some (0xAF, [0x000000AF]) := by decide
/-- Vector K6. -/
theorem test_crcUpd_inFlight : (nextOf (exec (.crcUpd 0x01) { base with txnState := .apc })).map
    (fun t => (t.crcAcc, t.responses)) = some (0x5E, [0x0001005E]) := by decide
/-- Vector K8. -/
theorem test_crcBuf : (nextOf (exec (.crcBuf 4) { rsp with crcAcc := 0x77 })).map
    (fun t => (t.crcAcc, t.responses)) = some (0xCE, [0x000400CE]) := by decide +kernel
/-- Vector K7. -/
theorem test_crcBuf_unwritten : exec (.crcBuf 2) { base with sp := [(0, 0x33)] } = .fault .unwrittenScratchpadRead :=
  rfl
/-- Program P4, line 7: accepted from ERR. -/
theorem test_txnStart : (nextOf (exec .txnStart { err with pollCnt := 3 })).map
    (fun t => (t.txnState, t.errVariant, t.pollCnt, t.responses)) = some (.apc, .noError, 0, [0x00010000]) := by
  decide
/-- Program P2, line 2, and line 7 from SP_IDX 4. -/
theorem test_txnStep : (nextOf (exec .txnStep apc)).map
      (fun t => (t.txnState, t.trace.length, t.responses)) = some (.wcd, 17, [0x00820000]) ∧
    (nextOf (exec .txnStep rsp)).map (fun t => (t.txnState, t.spIdx, t.tempHi, t.tempLo, t.responses)) =
      some (.done, 9, 0x55, 0x00, [0x00455500]) := by decide
/-- Program P4, line 9. -/
theorem test_txnAbort : (nextOf (exec .txnAbort err)).map
    (fun t => (t.txnState, t.errVariant, t.tempLo, t.responses)) = some (.idle, .noError, 0xFE, [0]) := by decide
/-- Program P2, line 9. -/
theorem test_txnStatus : seen (exec .txnStatus done) = some ([], some 0x00055500) := by decide
/-- Program P3, line 10. -/
theorem test_txnStatus_err : seen (exec .txnStatus err) = some ([], some 0x0026FFFE) := by decide

/-! ### One transition -/

/-- Program P6 and 95_test_vectors.md 2.1: an ILLEGAL word in ERR variant B. -/
theorem test_step_illegal : seen (step (offer err 0xF000)) = some ([], some 0x01260000) := by decide
/-- R210: a block reset beats the command at the same transition. -/
theorem test_step_blockReset : (nextOf (step { done with inputs := [⟨true, some 0xE000⟩] })).map
    (fun t => (t.txnState, t.sp, t.tempHi, t.responses)) = some (.idle, [], 0, []) := by decide
/-- The host's placement: the next step runs the word. -/
theorem test_withFetchWord : seen (step (State.reset.withFetchWord 16 0x90FF)) = some ([], some 0x00000035) := by
  decide
/-- Program P4, line 5: the poll limit. -/
theorem test_pollLimit : (nextOf (exec .txnStep { wcd with params := ⟨9, some 2⟩ })).map
    (fun t => (t.txnState, t.errVariant, t.pollCnt, t.responses)) = some (.err, .c, 2, [0x0076FFFD]) := by decide

/-! ### Functions -/

/-- R8, R89: a write slot's total is exactly 70, whatever the tolerance. -/
theorem test_waveform_write_total : waveformMeets (.w true) [6, 64] = true ∧ waveformMeets (.w true) [6, 65] = false := by
  simp [waveformMeets, slotPhases, slotTotalGiven, lengthMeets, slotUs, Config.tW1l, Config.tSlot]
/-- R90: a read slot whose low time and sample point are late by T_TOL and whose total is 70 is one. -/
theorem test_waveform_read_late (h : 2 * Config.tTol ≤ 55) :
    waveformMeets (.r true) [6 + Config.tTol, 9 + Config.tTol, 55 - 2 * Config.tTol] = true := by
  simp [waveformMeets, slotPhases, slotTotalGiven, lengthMeets, slotUs, Config.tRl, Config.tMsr, Config.tSlot]
  omega


/-- Vectors C3 to C6. -/
theorem test_crc8 : crc8 [0x01] = 0x5E ∧ crc8 [0x80] = 0x8C ∧ crc8 [0xFF] = 0x35 ∧
    crc8 [0x31, 0x32, 0x33, 0x34, 0x35, 0x36, 0x37, 0x38, 0x39] = 0xA1 := by decide +kernel
/-- Vectors T1 to T4. -/
theorem test_tempField : tempField 0x50 0x05 = (0x55, 0x00) ∧ tempField 0x91 0x01 = (0x19, 0x10) ∧
    tempField 0x5E 0xFF = (0xF5, 0xE0) ∧ tempField 0xD0 0x07 = (0x7D, 0x00) := by decide
/-- R92: case, a comment, a hexadecimal number; a line without a mnemonic. -/
theorem test_assembleLine :
    assembleLine ['c', 'r', 'c', '.', 'u', 'p', 'd', ' ', '0', 'x', '1', 'C', ' ', ';', 'x'] = .ok (some 0x901C) ∧
    assembleLine [' ', ';'] = .ok none := by decide
/-- R92: an operand out of range is refused with its line number. -/
theorem test_assemble_range : assemble [['T', 'X', 'N', '.', 'S', 'T', 'E', 'P'], ['S', 'P', '.', 'R', 'D', ' ', '9']] =
    .error (2, .operandOutOfRange) := by decide

/-! ### Witnesses: the hypotheses of each statement are met, clause by clause, at the ends of the ranges -/

theorem witness_DecodeOfEncodeRoundTrip : (Instr.busRbytes 1).wellFormed = true ∧ (Instr.busRbytes 9).wellFormed = true ∧
    (Instr.spRd 0).wellFormed = true ∧ (Instr.spRd 8).wellFormed = true ∧ (Instr.busWbyte 255).wellFormed = true := by
  decide

theorem witness_OnlyEncodedWordsDecode : decode 0x6900 = .ok (.busRbytes 9) ∧ decode 0x7000 = .ok (.spRd 0) := by decide

theorem witness_StepRunsTheDecodedInstruction :
    (offer apc 0xC000).inputs = ⟨false, some 0xC000⟩ :: [] ∧ decode 0xC000 = .ok .txnStep ∧
      Instr.txnStep.wellFormed = true := by decide

theorem witness_WordOffTheTableIsIllegal : ∀ r ∈ opcodeRows, ¬ r.selects 0x6A00 := by decide

theorem witness_RejectedAsIllegal : ∃ s : State, ∃ rest, s.inputs = ⟨false, some 0x6A00⟩ :: rest :=
  ⟨offer base 0x6A00, [], rfl⟩

theorem witness_StatusIsTheFirstFailedCheck :
    (∃ t, step (offer wcd 0xF000) = .next t ∧ decode 0xF000 = .error .reservedOp) ∧
    (∃ t, step (offer wcd 0x1000) = .next t ∧ Instr.busReset.gated = true ∧ wcd.txnState.inFlight = true) ∧
    ∃ t, step (offer done 0xE000) = .next t := ⟨⟨_, rfl, rfl⟩, ⟨_, rfl, rfl, rfl⟩, ⟨_, rfl⟩⟩

theorem witness_RejectionChangesNothing :
    (∃ t, step (offer wcd 0x1000) = .next t ∧ t.responses = wcd.responses ++ [0x02020000#32] ∧
      rspStatus 0x02020000 ≠ 0) ∧
    ∃ t, step (offer err 0xF000) = .next t ∧ t.responses = err.responses ++ [0x01260000#32] ∧
      rspStatus 0x01260000 ≠ 0 :=
  ⟨⟨_, rfl, by decide, by decide⟩, ⟨_, rfl, by decide, by decide⟩⟩

theorem witness_ResponseReportsTheStateAfter : ∃ t, step (offer base 0xB000) = .next t := ⟨_, rfl⟩

theorem witness_PresenceBitOnlyForASeenPresence :
    (∃ t, step (offer { base with presenceIn := [true] } 0x1000) = .next t) ∧
    (∃ t, step (offer apc 0xC000) = .next t) ∧ ∃ t, step (offer apr 0xC000) = .next t :=
  ⟨⟨_, rfl⟩, ⟨_, rfl⟩, ⟨_, rfl⟩⟩

theorem witness_DoneBitOnlyOnCompletion :
    ∃ t, nextOf (step (offer rsp 0xC000)) = some t ∧ t.responses.map rspDone = [true] := ⟨_, rfl, by decide⟩

theorem witness_NoCommandNoAction : base.inputs = [] ∧
    ({ base with inputs := [⟨false, none⟩] } : State).inputs = ⟨false, none⟩ :: [] := by decide

theorem witness_BlockResetRestoresResetValues :
    ({ done with inputs := [⟨true, some 0xC000⟩] } : State).inputs = ⟨true, some 0xC000⟩ :: [] := by decide

/-- A word of the operation that is not one of its legal words, for each ILLEGAL clause. -/
theorem witness_illegal_words :
    (opField 0x1001 = 0x1 ∧ opField 0x2002 = 0x2 ∧ opField 0x3100 = 0x3 ∧ opField 0x5001 = 0x5 ∧
      opField 0x8001 = 0x8 ∧ opField 0xB100 = 0xB ∧ opField 0xC001 = 0xC ∧ opField 0xD001 = 0xD ∧ opField 0xE080 = 0xE) ∧
    (opField 0x4100 = 0x4 ∧ nField 0x4100 ≠ 0) ∧ (opField 0x9100 = 0x9 ∧ nField 0x9100 ≠ 0) ∧
    (opField 0x6000 = 0x6 ∧ (nField 0x6000).toNat = 0) ∧ (opField 0x6A00 = 0x6 ∧ 9 < (nField 0x6A00).toNat) ∧
    (opField 0x6901 = 0x6 ∧ dataField 0x6901 ≠ 0) ∧ (opField 0x7900 = 0x7 ∧ 8 < (nField 0x7900).toNat) ∧
    (opField 0x7001 = 0x7 ∧ dataField 0x7001 ≠ 0) ∧ (opField 0xA000 = 0xA ∧ (nField 0xA000).toNat = 0) ∧
    (opField 0xAA00 = 0xA ∧ 9 < (nField 0xAA00).toNat) ∧ (opField 0xA901 = 0xA ∧ dataField 0xA901 ≠ 0) := by decide

/-- The two clauses of BUSY gating, for BusReset, BusWbit, BusRbit, BusWbyte, BusRbyte, BusRbytes, TxnStart and
TxnStepOutsideATransactionIsQuiet: every in-flight state and every other one. -/
theorem witness_gating : apc.txnState.inFlight = true ∧ wcd.txnState.inFlight = true ∧
    apr.txnState.inFlight = true ∧ rsp.txnState.inFlight = true ∧ base.txnState.inFlight = false ∧
    done.txnState.inFlight = false ∧ err.txnState.inFlight = false := by decide

theorem witness_IllFormedTermsAnswerIllegal : (Instr.busRbytes 0).wellFormed = false ∧
    (Instr.busRbytes 10).wellFormed = false ∧ (Instr.spRd 15).wellFormed = false ∧
    (Instr.crcBuf 15).wellFormed = false := by decide

/-- The operand ranges of BusRbytes, SpRd and CrcBuf, both ends. -/
theorem witness_operand_ranges : (1 ≤ (1#4).toNat ∧ (9#4).toNat ≤ 9) ∧
    ((0#4).toNat ≤ 8 ∧ (8#4).toNat ≤ 8) := by decide

theorem witness_SpRdReadsOneByte : (base.spW 0 = false ∧ rsp.spW 4 = false) ∧
    (done.spRead 0 = some 0x50 ∧ done.spRead 8 = some 0x1C) := by decide

theorem witness_CrcBufChecksTheScratchpad :
    (∃ j, j < (5#4).toNat ∧ rsp.spW j = false) ∧
    (bytesP2.length = (9#4).toNat ∧ ∀ j, j < (9#4).toNat → done.spRead j = bytesP2[j]?) ∧
    ((bytesP2.take 1).length = (1#4).toNat ∧ ∀ j, j < (1#4).toNat → done.spRead j = (bytesP2.take 1)[j]?) :=
  ⟨⟨4, by decide, by decide⟩, by decide, by decide⟩

theorem witness_SentinelsAreNoReadings : ErrVariant.a ≠ .noError ∧ ErrVariant.c ≠ .noError ∧
    (sentinel .c).2 = (sentinel .c).2 := by decide

theorem witness_TxnStepAwaitsPresenceForConvert :
    (apc.txnState = .apc ∧ apc.presenceAnswer = true) ∧
    ({ apc with presenceIn := [false] } : State).presenceAnswer = false := by decide

theorem witness_TxnStepSeesTheConversionDone : ({ wcd with bitIn := [true] } : State).txnState = .wcd ∧
    pollLimitInRange wcd.params = true ∧ ({ wcd with bitIn := [true] } : State).bitAnswer = true := by decide

/-- Both clauses: a limit just reached, a limit just not reached, no limit; and the saturated count. -/
theorem witness_TxnStepCountsABusyPoll :
    (wcd.txnState = .wcd ∧ wcd.bitAnswer = false ∧ (2#16).toNat = min (wcd.pollCnt.toNat + 1) 65535) ∧
    (pollLimitInRange ⟨9, some 2⟩ = true ∧ 2 ≤ (2#16).toNat) ∧
    (pollLimitInRange ⟨9, some 3⟩ = true ∧ (2#16).toNat < 3) ∧
    (pollLimitInRange wcd.params = true ∧ wcd.params.pollLimit = none) ∧
    (65535#16).toNat = min ((65535#16).toNat + 1) 65535 := by decide

theorem witness_TxnStepAwaitsPresenceForRead :
    (apr.txnState = .apr ∧ apr.presenceAnswer = true) ∧
    ({ apr with presenceIn := [false] } : State).presenceAnswer = false := by decide

/-- The invariant in each state of a transaction. -/
theorem witness_Invariant_apc : Invariant apc := by constructor <;> decide
theorem witness_Invariant_wcd : Invariant { wcd with params := ⟨1, some 2⟩ } := by constructor <;> decide
theorem witness_Invariant_apr : Invariant apr := by constructor <;> decide
theorem witness_Invariant_rsp : Invariant rsp := by constructor <;> decide
theorem witness_Invariant_rspStart : Invariant { rspStart with params := ⟨1, none⟩ } := by constructor <;> decide
theorem witness_Invariant_rspLast : Invariant rspLast := by constructor <;> decide
theorem witness_Invariant_done : Invariant done := by constructor <;> decide
theorem witness_Invariant_err : Invariant err := by constructor <;> decide

/-- RSP going on (SP_IDX 0, one byte) and RSP completing (from 4 with SP_CHUNK 9, from 8 with the last byte). -/
theorem witness_TxnStepReadsTheScratchpad :
    (Invariant { rspStart with params := ⟨1, none⟩ } ∧ rspStart.txnState = .rsp ∧
      rspStart.spIdx.toNat + min 1 (9 - rspStart.spIdx.toNat) < 9) ∧
    (Invariant rsp ∧ rsp.txnState = .rsp ∧ rsp.spIdx.toNat + min 9 (9 - rsp.spIdx.toNat) = 9) ∧
    (Invariant { rspLast with params := ⟨1, none⟩ } ∧ rspLast.txnState = .rsp ∧
      rspLast.spIdx.toNat + min 1 (9 - rspLast.spIdx.toNat) = 9) := by
  refine ⟨⟨?_, by decide⟩, ⟨?_, by decide⟩, ⟨?_, by decide⟩⟩ <;> constructor <;> decide

theorem witness_TxnStepRefusesABadConfiguration :
    (({ wcd with params := ⟨9, some 0⟩ } : State).params.pollLimit = some 0) ∧
    (({ wcd with params := ⟨9, some 65536⟩ } : State).params.pollLimit = some 65536 ∧ 65535 < 65536) ∧
    (({ rsp with params := ⟨0, none⟩ } : State).params.spChunk = 0) ∧
    9 < ({ rsp with params := ⟨10, none⟩ } : State).params.spChunk := by decide

theorem witness_TxnStatusShowsTheResult : done.txnState = .done ∧ err.txnState = .err ∧
    base.txnState ≠ .done ∧ base.txnState ≠ .err ∧ rsp.txnState ≠ .done ∧ rsp.txnState ≠ .err := by decide

/-- Each kind of change of OnlyTheNamedCommandsWriteARegister takes place. -/
theorem witness_OnlyTheNamedCommandsWriteARegister :
    (∃ t, exec (.crcUpd 1) base = .next t ∧ t.crcAcc ≠ base.crcAcc) ∧
    (∃ t, exec .txnStart base = .next t ∧ t.txnState ≠ base.txnState) ∧
    (∃ t, exec .txnStep { apc with presenceIn := [false] } = .next t ∧ t.tempHi ≠ apc.tempHi) ∧
    (∃ t, exec (.busRbytes 1) { base with bitIn := bitsOf 0x33 } = .next t ∧ t.spRead 0 ≠ base.spRead 0) ∧
    (∃ t, exec (.busWbit true) base = .next t ∧ t.trace ≠ base.trace) ∧
    ∃ t, exec (.busWbit true) { base with lineDrive := .low } = .next t ∧ t.lineDrive ≠ .low :=
  ⟨⟨_, rfl, by decide⟩, ⟨_, rfl, by decide⟩, ⟨_, rfl, by decide⟩, ⟨_, rfl, by decide⟩, ⟨_, rfl, by decide⟩, ⟨_, rfl, by decide⟩⟩

theorem witness_SlotsPerCommand : Instr.busRbyte ≠ .txnStep ∧
    (∃ t, exec .busRbyte { base with bitIn := bitsOf 0x33 } = .next t) ∧ ∃ t, exec .busRbyte apc = .next t :=
  ⟨by decide, ⟨_, rfl⟩, ⟨_, rfl⟩⟩

theorem witness_SlotsPerTxnStep : (∃ t, exec .txnStep apc = .next t) ∧ (∃ t, exec .txnStep wcd = .next t) ∧
    (∃ t, exec .txnStep apr = .next t) ∧ (∃ t, exec .txnStep { rspStart with params := ⟨1, none⟩ } = .next t) ∧
    ∃ t, exec .txnStep done = .next t := ⟨⟨_, rfl⟩, ⟨_, rfl⟩, ⟨_, rfl⟩, ⟨_, rfl⟩, ⟨_, rfl⟩⟩

theorem witness_BusTimeOfEachCommand : (Instr.busWbit true).wellFormed = true ∧ base.txnState.inFlight = false ∧
    ∃ t, exec (.busWbit true) base = .next t ∧ t.trace = base.trace ++ [.w true] := ⟨rfl, rfl, _, rfl, rfl⟩

theorem witness_EveryStepKeepsTheInvariant :
    Invariant (offer apc 0xC000) ∧ ∃ t, step (offer apc 0xC000) = .next t ∧ t.txnState = .wcd :=
  ⟨by constructor <;> decide, _, rfl, rfl⟩

/-- An ILLEGAL word and a block reset in the middle of a transaction. -/
theorem witness_EveryStepKeepsTheInvariant_other :
    (Invariant (offer rsp 0xF000) ∧ ∃ t, step (offer rsp 0xF000) = .next t) ∧
    (Invariant { rsp with inputs := [⟨true, none⟩] } ∧ ∃ t, step { rsp with inputs := [⟨true, none⟩] } = .next t) :=
  ⟨⟨by constructor <;> decide, _, rfl⟩, ⟨by constructor <;> decide, _, rfl⟩⟩

theorem witness_OnTheWire_wcd : OnTheWire wcd := ⟨[], 1, by decide, by decide⟩
theorem witness_OnTheWire_apr : OnTheWire apr := ⟨[], 1, by decide, by decide⟩
theorem witness_OnTheWire_rsp : OnTheWire rsp := ⟨[], bytesP2.take 4, by decide, by decide, by decide⟩

theorem witness_EveryStepKeepsThePhaseOnTheWire :
    Invariant (offer apr 0xC000) ∧ OnTheWire (offer apr 0xC000) ∧
      ∃ t, step (offer apr 0xC000) = .next t ∧ t.txnState = .rsp :=
  ⟨by constructor <;> decide, ⟨[], 1, by decide, by decide⟩, _, rfl, rfl⟩

/-- Both stops of StepStopsOnlyOnAnUnwrittenByte. -/
theorem witness_StepStopsOnlyOnAnUnwrittenByte :
    (Invariant (offer base 0x7000) ∧ step (offer base 0x7000) = .fault .unwrittenScratchpadRead) ∧
    (Invariant (offer rsp 0xA500) ∧ step (offer rsp 0xA500) = .fault .unwrittenScratchpadRead) :=
  ⟨⟨by constructor <;> decide, rfl⟩, ⟨by constructor <;> decide, rfl⟩⟩

/-- Program P2's answers with SP_CHUNK 4 and a limit of three. -/
def apcLimited : State := { apc with params := ⟨4, some 3⟩ }

/-- No busy poll under a limit of one, one byte at a time. -/
def apcTight : State :=
  { apc with params := ⟨1, some 1⟩, bitIn := [true] ++ bitsOfBytes bytesP2 }

theorem witness_SuccessTakesTheCountedSteps :
    Invariant apcLimited ∧ apcLimited.txnState = .apc ∧ bytesP2.length = 9 ∧
      (∀ l, apcLimited.params.pollLimit = some l → 2 < l) ∧ apcLimited.presenceIn = true :: true :: [] ∧
      apcLimited.bitIn = List.replicate 2 false ++ [true] ++ bitsOfBytes bytesP2 ++ [] :=
  ⟨by constructor <;> decide, rfl, rfl, fun l h => by cases h; decide, rfl, rfl⟩

theorem witness_SuccessTakesTheCountedSteps_tight :
    Invariant apcTight ∧ apcTight.txnState = .apc ∧
      (∀ l, apcTight.params.pollLimit = some l → 0 < l) ∧ apcTight.presenceIn = true :: true :: [] ∧
      apcTight.bitIn = List.replicate 0 false ++ [true] ++ bitsOfBytes bytesP2 ++ [] :=
  ⟨by constructor <;> decide, rfl, fun l h => by cases h; decide, rfl, rfl⟩

theorem witness_BoundedPollingCompletes :
    (Invariant apcTight ∧ apcTight.txnState = .apc ∧ apcTight.params.pollLimit = some 1) ∧
    (Invariant { apc with params := ⟨9, some 65535⟩ } ∧ apc.txnState = .apc) :=
  ⟨⟨by constructor <;> decide, rfl, rfl⟩, ⟨by constructor <;> decide, rfl⟩⟩

/-- Both clauses: a limit of three, and no limit. -/
theorem witness_StuckLowLineEndsInVariantC :
    (Invariant { apcLimited with bitIn := List.replicate 3 false } ∧ apcLimited.txnState = .apc ∧
      apcLimited.params.pollLimit = some 3 ∧ apcLimited.presenceIn = true :: [true] ∧
      ({ apcLimited with bitIn := List.replicate 3 false } : State).bitIn = List.replicate 3 false ++ []) ∧
    (apc.txnState = .apc ∧ apc.params.pollLimit = none ∧ apc.presenceIn = true :: [true] ∧
      apc.bitIn = List.replicate 2 false ++ (true :: bitsOfBytes bytesP2)) :=
  ⟨⟨by constructor <;> decide, rfl, rfl, rfl, rfl⟩, rfl, rfl, rfl, rfl⟩

/-- In RSP of a second transaction, after a first one in which the device gave the bytes of program P2b. -/
def rspSecond : State :=
  { rsp with
    trace := (readPhase ++ readSlots (bitsOfBytes [0x91, 0x01, 0x4B, 0x46, 0x7F, 0xFF, 0x0C, 0x10, 0x70]) ++
        convertPhase ++ readSlots [true]) ++ readPhase ++ readSlots (bitsOfBytes (bytesP2.take 4)) }

theorem witness_CompletedResultIsTheDevices :
    Invariant rspSecond ∧ OnTheWire rspSecond ∧ rspSecond.txnState = .rsp ∧
      ∃ t, nextOf (exec .txnStep rspSecond) = some t ∧ t.txnState = .done ∧ bytesP2.length = 9 ∧
        bytesP2[0]? = some 0x50 ∧ bytesP2[1]? = some 0x05 ∧ ScratchpadKept bytesP2 t.trace :=
  ⟨by constructor <;> decide, ⟨_, bytesP2.take 4, rfl, by decide, by decide⟩, rfl, _, rfl, by decide, by decide,
    by decide, by decide, scratchpadKept_of_lastReadPhase bytesP2
      (readPhase ++ readSlots (bitsOfBytes [0x91, 0x01, 0x4B, 0x46, 0x7F, 0xFF, 0x0C, 0x10, 0x70]) ++
        convertPhase ++ readSlots [true])⟩

/-- In APC after a finished transaction, and in APR after the convert phase's presence: the device is gone. -/
theorem witness_AbsentDeviceEndsTheTransaction :
    (Invariant { apc with presenceIn := [false], trace := convertPhase } ∧
      ∃ t, exec .txnStep { apc with presenceIn := [false], trace := convertPhase } = .next t ∧
        t.trace = convertPhase ++ [.reset false]) ∧
    (Invariant { apr with presenceIn := [false] } ∧ OnTheWire { apr with presenceIn := [false] } ∧
      ∃ t, exec .txnStep { apr with presenceIn := [false] } = .next t ∧ t.trace = apr.trace ++ [.reset false]) ∧
    NoDevice [.reset false] :=
  ⟨⟨by constructor <;> decide, _, rfl, rfl⟩,
    ⟨by constructor <;> decide, ⟨[], 1, by decide, by decide⟩, _, rfl, rfl⟩, by unfold NoDevice; decide⟩

theorem witness_InternalReadsAreIdempotent : (∃ t, exec .txnStatus done = .next t) ∧
    ∃ t, exec (.spRd 8) done = .next t := ⟨⟨_, rfl⟩, ⟨_, rfl⟩⟩

theorem witness_AssemblerEmitsLegalWords :
    assemble [['S', 'P', '.', 'R', 'D', ' ', '8'], [], ['C', 'R', 'C', '.', 'S', 'P']] = .ok [0x7800, 0xA900] := by
  decide

end Sys2Proof.Tests
end

/-! PROOFS. The scope rules of 00_scope.md: a legal command word runs the instruction it decodes to (R18), and
what the waveform of each slot is (R8, R28, R88 to R90). -/

namespace Sys2Proof.Machine

/-! ### One transition -/

/-- What `step` does with a command word never asks whether `i` is well-formed: the decoder's answer is enough (R18,
R76). -/
theorem step_of_decoded {s : State} {w : CmdWord} {rest : List Input} {i : Instr}
    (hin : s.inputs = ⟨false, some w⟩ :: rest) (hdec : decode w = .ok i) :
    step s = exec i { s with inputs := rest } := by
  rw [step_of_word hin, hdec]

/-- Settles O7: the ports' head is the word, and the decoder's answer decides. -/
theorem stepRunsTheDecodedInstruction : Obligations.StepRunsTheDecodedInstruction :=
  fun _ _ _ _ hin hdec _ => step_of_decoded hin hdec

/-! ### The phases of each slot, with R8's figures -/

@[simp] theorem slotPhases_reset (p : Bool) :
    slotPhases (.reset p) = [⟨.low, 480, .exact⟩, ⟨.released, 70, .exact⟩, ⟨.released, 410, .exact⟩] := rfl

@[simp] theorem slotPhases_w (b : Bool) :
    slotPhases (.w b) =
      [⟨.low, if b then 6 else 60, .approx⟩, ⟨.released, if b then 64 else 10, .rest⟩] := by
  cases b <;> rfl

@[simp] theorem slotPhases_r (b : Bool) :
    slotPhases (.r b) = [⟨.low, 6, .approx⟩, ⟨.released, 9, .approx⟩, ⟨.released, 55, .rest⟩] := rfl

@[simp] theorem slotUs_reset (p : Bool) : slotUs (.reset p) = 960 := by simp [slotUs]

/-- Both write slots fill T_SLOT: what the low time leaves is released (R89). -/
@[simp] theorem slotUs_w (b : Bool) : slotUs (.w b) = 70 := by cases b <;> simp [slotUs]

@[simp] theorem slotUs_r (b : Bool) : slotUs (.r b) = 70 := by simp [slotUs]

/-- Every slot starts with the falling edge and leaves the line to the pull-up (R103). -/
theorem slotPhases_low_to_released (e : Slot) :
    ((slotPhases e).map (fun p => p.drive)).head? = some .low ∧
      ((slotPhases e).map (fun p => p.drive)).getLast? = some .released := by
  cases e <;> simp

/-- The sample point ends the second phase of a reset or a read slot, in which the block has let go of the line
(R88, R90). -/
theorem sample_ends_released_phase (e : Slot) (atUs : Nat) (h : sampleAtUs e = some atUs) :
    ∃ earlier p later, slotPhases e = earlier ++ p :: later ∧
      (earlier.map (fun h => h.us)).sum + p.us = atUs ∧ p.drive = .released := by
  cases e with
  | reset p =>
    exact ⟨[⟨.low, 480, .exact⟩], ⟨.released, 70, .exact⟩, [⟨.released, 410, .exact⟩], rfl, Option.some.inj h, rfl⟩
  | w b => cases h
  | r b =>
    exact ⟨[⟨.low, 6, .approx⟩], ⟨.released, 9, .approx⟩, [⟨.released, 55, .rest⟩], rfl, Option.some.inj h, rfl⟩

/-! ### The level of the line (R28) -/

@[simp] theorem wireLevel_low (ds : List Bool) : wireLevel .low ds = false := rfl

theorem wireLevel_released_iff (ds : List Bool) : wireLevel .released ds = true ↔ ∀ d ∈ ds, d = false := by
  simp [wireLevel]

/-! ### When a measured length, and a measured slot, meets its figures (R8, R88 to R90) -/

@[simp] theorem lengthMeets_exact (nominal measured : Nat) :
    lengthMeets .exact nominal measured = true ↔ measured = nominal := by
  simp [lengthMeets]

@[simp] theorem lengthMeets_approx (nominal measured : Nat) :
    lengthMeets .approx nominal measured = true ↔
      measured ≤ nominal + Config.tTol ∧ nominal ≤ measured + Config.tTol := by
  simp [lengthMeets]

@[simp] theorem lengthMeets_rest (nominal measured : Nat) : lengthMeets .rest nominal measured = true := rfl

/-- A reset slot's figures are exact, and their sum is its total. -/
theorem waveformMeets_reset_iff (p : Bool) (l d r : Nat) :
    waveformMeets (.reset p) [l, d, r] = true ↔ l = 480 ∧ d = 70 ∧ r = 410 := by
  have total : l = 480 → d = 70 → r = 410 → l + (d + r) = 960 := by omega
  simpa [waveformMeets, slotTotalGiven] using total

/-- A write slot's total is exact; only its low time has a tolerance. -/
theorem waveformMeets_w_iff (b : Bool) (l r : Nat) :
    waveformMeets (.w b) [l, r] = true ↔
      l ≤ (if b then 6 else 60) + Config.tTol ∧ (if b then 6 else 60) ≤ l + Config.tTol ∧ l + r = 70 := by
  simp [waveformMeets, slotTotalGiven, and_assoc]

/-- A read slot's low time, sample delay and total each have the tolerance. -/
theorem waveformMeets_r_iff (b : Bool) (l d r : Nat) :
    waveformMeets (.r b) [l, d, r] = true ↔
      l ≤ 6 + Config.tTol ∧ 6 ≤ l + Config.tTol ∧ d ≤ 9 + Config.tTol ∧ 9 ≤ d + Config.tTol ∧
        l + d + r ≤ 70 + Config.tTol ∧ 70 ≤ l + d + r + Config.tTol := by
  simp [waveformMeets, slotTotalGiven, and_assoc, Nat.add_assoc]

/-- Settles O47: the phases, the lengths and the sample points slot by slot, then the line, then the measured
slots. -/
theorem slotWaveforms : Obligations.SlotWaveforms := by
  refine ⟨fun p => ?resetPhases, ?w1Phases, ?w0Phases, fun b => ?readPhases,
    fun p => ⟨slotUs_reset p, rfl, rfl⟩, fun b => ⟨slotUs_w b, rfl⟩, fun b => ⟨slotUs_r b, rfl, rfl⟩,
    slotPhases_low_to_released, sample_ends_released_phase, wireLevel_low, wireLevel_released_iff,
    waveformMeets_reset_iff, waveformMeets_w_iff, waveformMeets_r_iff⟩
  case resetPhases => rw [slotPhases_reset]; rfl
  case w1Phases => rw [slotPhases_w]; rfl
  case w0Phases => rw [slotPhases_w]; rfl
  case readPhases => rw [slotPhases_r]; rfl

end Sys2Proof.Machine

/-! PROOFS. The state and its invariant (10_state.md): which instruction can write which register (R31 to R34), the
values after reset (R40), and that every transition keeps the invariant (R25, R29, R30, R66, R166, R168, R175). -/

namespace Sys2Proof.Machine

/-! ### What bus traffic keeps

A frame is a relation between the state before and the state after, so the frames of an operation's parts compose. -/

/-- Nothing the invariant speaks of is lost: the sequencer's registers and the parameters are the same, the line
stays released, and the scratchpad keeps its form and its marks. -/
structure KeepsSequencer (s u : State) : Prop where
  line : s.lineDrive = .released → u.lineDrive = .released
  txn : u.txnState = s.txnState
  err : u.errVariant = s.errVariant
  poll : u.pollCnt = s.pollCnt
  idx : u.spIdx = s.spIdx
  tempHi : u.tempHi = s.tempHi
  tempLo : u.tempLo = s.tempLo
  params : u.params = s.params
  spForm : s.sp.wf → u.sp.wf
  written : ∀ i, s.spW i = true → u.spW i = true

/-- `u` comes from `s` by slots and by stores of the bytes they read. -/
structure BusTraffic (s u : State) : Prop extends KeepsSequencer s u where
  crc : u.crcAcc = s.crcAcc
  inputs : u.inputs = s.inputs

/-- Fields that neither the sequencer nor the scratchpad uses may take any value. -/
theorem keepsSequencer_of_others (s : State) (c : Byte) (tr : Trace) (rs : List RspWord) (ins : List Input)
    (ps bs : List Bool) :
    KeepsSequencer s
      { s with crcAcc := c, trace := tr, responses := rs, inputs := ins, presenceIn := ps, bitIn := bs } :=
  ⟨id, rfl, rfl, rfl, rfl, rfl, rfl, rfl, id, fun _ => id⟩

theorem BusTraffic.refl (s : State) : BusTraffic s s := ⟨keepsSequencer_of_others s .., rfl, rfl⟩

theorem KeepsSequencer.trans {s u v : State} (h : KeepsSequencer s u) (k : KeepsSequencer u v) :
    KeepsSequencer s v where
  line := k.line ∘ h.line
  txn := k.txn.trans h.txn
  err := k.err.trans h.err
  poll := k.poll.trans h.poll
  idx := k.idx.trans h.idx
  tempHi := k.tempHi.trans h.tempHi
  tempLo := k.tempLo.trans h.tempLo
  params := k.params.trans h.params
  spForm := k.spForm ∘ h.spForm
  written i := k.written i ∘ h.written i

theorem BusTraffic.trans {s u v : State} (h : BusTraffic s u) (k : BusTraffic u v) : BusTraffic s v :=
  ⟨h.toKeepsSequencer.trans k.toKeepsSequencer, k.crc.trans h.crc, k.inputs.trans h.inputs⟩

theorem BusTraffic.kept {s u : State} (h : BusTraffic s u) :
    u.crcAcc = s.crcAcc ∧ u.params = s.params ∧ u.inputs = s.inputs := ⟨h.crc, h.params, h.inputs⟩

/-- Slots alone, whatever their events and whatever answers they use. -/
theorem busTraffic_of_slots (s : State) (tr : Trace) (ps bs : List Bool) :
    BusTraffic s { s with lineDrive := .released, trace := tr, presenceIn := ps, bitIn := bs } :=
  ⟨⟨fun _ => rfl, rfl, rfl, rfl, rfl, rfl, rfl, rfl, id, fun _ => id⟩, rfl, rfl⟩

theorem busReset_traffic (s : State) : BusTraffic s s.busReset.2 := by
  rw [State.busReset_eq]; exact busTraffic_of_slots ..

theorem slotWrite_traffic (s : State) (b : Bool) : BusTraffic s (s.slotWrite b) := by
  rw [State.slotWrite_eq]; exact busTraffic_of_slots ..

theorem slotRead_traffic (s : State) : BusTraffic s s.slotRead.2 := by
  rw [State.slotRead_eq]; exact busTraffic_of_slots ..

theorem writeByte_traffic (s : State) (d : Byte) : BusTraffic s (s.writeByte d) := by
  rw [State.writeByte_eq]; exact busTraffic_of_slots ..

theorem readByte_traffic (s : State) : BusTraffic s s.readByte.2 := by
  rw [State.readByte_eq]; exact busTraffic_of_slots ..

theorem spWrite_traffic (s : State) {a : Nat} (ha : a < Config.spLen) (v : Byte) : BusTraffic s (s.spWrite a v) where
  line := id
  txn := rfl
  err := rfl
  poll := rfl
  idx := rfl
  tempHi := rfl
  tempLo := rfl
  params := rfl
  spForm h := Memory.write_wf h ha v
  written i h := by
    simp only [State.spW, State.spWrite_read] at h ⊢
    split
    · rfl
    · exact h
  crc := rfl
  inputs := rfl

theorem readBytesInto_traffic (s : State) (a n : Nat) (h : a + n ≤ Config.spLen) :
    BusTraffic s (s.readBytesInto a n) := by
  induction n generalizing s a with
  | zero => exact .refl s
  | succ n ih =>
    exact ((readByte_traffic s).trans (spWrite_traffic _ (by omega) _)).trans (ih _ (a + 1) (by omega))

/-- The reset and the two command bytes that open a phase of the transaction (R164, R167). -/
theorem resetThenTwoBytes_traffic (s : State) (d e : Byte) :
    BusTraffic s ((s.busReset.2.writeByte d).writeByte e) :=
  ((busReset_traffic s).trans (writeByte_traffic _ d)).trans (writeByte_traffic _ e)

/-- A step of RSP never reads past SP[8], also where SP_IDX is beyond it: there it reads nothing (log 13). -/
theorem chunk_traffic (s : State) : BusTraffic s (s.readBytesInto s.spIdx.toNat s.chunk) := by
  rcases Nat.le_total s.spIdx.toNat Config.spLen with hle | hge
  · exact readBytesInto_traffic s _ _ (by unfold State.chunk; omega)
  · have hnone : s.chunk = 0 := by unfold State.chunk; omega
    rw [hnone]
    exact .refl s

/-! ### Everything a TXN.STEP can do (R163) -/

/-- The moves of the sequencer, each from its state, with what it writes after its bus traffic. -/
inductive SequencerMove (s : State) : State → Prop where
  | quiet : s.txnState.inFlight = false → SequencerMove s (s.respond {})
  | convert {u : State} : s.txnState = .apc → BusTraffic s u →
      SequencerMove s (((u.setPollCnt 0).setTxn .wcd).respond { presence := true })
  | absentForConvert {u : State} : s.txnState = .apc → BusTraffic s u → SequencerMove s (u.enterError .a)
  | conversionDone {u : State} : s.txnState = .wcd → BusTraffic s u → SequencerMove s ((u.setTxn .apr).respond {})
  | busyPoll {u : State} : s.txnState = .wcd → BusTraffic s u →
      pollLimitReached s.params (pollCntNext s.pollCnt) = false →
      SequencerMove s ((u.setPollCnt (pollCntNext s.pollCnt)).respond {})
  | lastPoll {u : State} : s.txnState = .wcd → BusTraffic s u →
      pollLimitReached s.params (pollCntNext s.pollCnt) = true →
      SequencerMove s ((u.setPollCnt (pollCntNext s.pollCnt)).enterError .c)
  | read {u : State} : s.txnState = .apr → BusTraffic s u →
      SequencerMove s (((u.setSpIdx 0).setTxn .rsp).respond { presence := true })
  | absentForRead {u : State} : s.txnState = .apr → BusTraffic s u → SequencerMove s (u.enterError .b)
  | chunk : s.txnState = .rsp → s.rspAfterReads.spIdx ≠ 9 → SequencerMove s (s.rspAfterReads.respond {})
  | complete {b0 b1 : Byte} (f : RspFields) : s.txnState = .rsp → s.rspAfterReads.spIdx = 9 →
      s.rspAfterReads.spRead 0 = some b0 → s.rspAfterReads.spRead 1 = some b1 →
      SequencerMove s (((s.rspAfterReads.setTemp (tempField b0 b1)).setTxn .done).respond f)

theorem stepApc_move {s : State} (hs : s.txnState = .apc) : SequencerMove s s.stepApc := by
  unfold State.stepApc
  split
  · exact .convert hs (resetThenTwoBytes_traffic s _ _)
  · exact .absentForConvert hs (busReset_traffic s)

theorem stepWcd_move {s : State} (hs : s.txnState = .wcd) : SequencerMove s s.stepWcd := by
  simp only [State.stepWcd]
  split
  · exact .conversionDone hs (slotRead_traffic s)
  · split
    · next hlim => exact .lastPoll hs (slotRead_traffic s) hlim
    · next hlim => exact .busyPoll hs (slotRead_traffic s) (Bool.eq_false_of_not_eq_true hlim)

theorem stepApr_move {s : State} (hs : s.txnState = .apr) : SequencerMove s s.stepApr := by
  unfold State.stepApr
  split
  · exact .read hs (resetThenTwoBytes_traffic s _ _)
  · exact .absentForRead hs (busReset_traffic s)

theorem stepRsp_move {s t : State} (hs : s.txnState = .rsp) (h : s.stepRsp = .next t) : SequencerMove s t := by
  simp only [State.stepRsp] at h
  split at h
  · next hidx =>
    split at h
    · next h0 h1 => cases h; exact .complete _ hs hidx h0 h1
    · cases h
  · next hidx => cases h; exact .chunk hs hidx

theorem txnStep_move {s t : State} (h : exec .txnStep s = .next t) : SequencerMove s t := by
  change execTxnStep s = .next t at h
  unfold execTxnStep at h
  split at h
  · next hs => cases h; exact .quiet (by rw [hs]; rfl)
  · next hs => cases h; exact .quiet (by rw [hs]; rfl)
  · next hs => cases h; exact .quiet (by rw [hs]; rfl)
  · next hs => cases h; exact stepApc_move hs
  · next hs =>
    split at h
    · cases h; exact stepWcd_move hs
    · cases h
  · next hs => cases h; exact stepApr_move hs
  · next hs =>
    split at h
    · exact stepRsp_move hs h
    · cases h

/-- What no move of the sequencer touches (R32, logs 1 and 3). -/
theorem SequencerMove.frame {s t : State} (h : SequencerMove s t) :
    t.crcAcc = s.crcAcc ∧ t.params = s.params ∧ t.inputs = s.inputs := by
  cases h with
  | quiet => exact ⟨rfl, rfl, rfl⟩
  | convert _ hb => exact hb.kept
  | absentForConvert _ hb => exact hb.kept
  | conversionDone _ hb => exact hb.kept
  | busyPoll _ hb _ => exact hb.kept
  | lastPoll _ hb _ => exact hb.kept
  | read _ hb => exact hb.kept
  | absentForRead _ hb => exact hb.kept
  | chunk => exact (chunk_traffic s).kept
  | complete => exact (chunk_traffic s).kept

/-! ### Everything an instruction can do -/

/-- What an instruction can have written where it answers a next state. -/
inductive Effect (s : State) : Instr → State → Prop where
  /-- A response and nothing else: a rejection, SP.RD, TXN.STATUS. -/
  | answer (i : Instr) (f : RspFields) : Effect s i (s.respond f)
  /-- An accepted BUS command. -/
  | bus {i : Instr} {u : State} (f : RspFields) : i.gated = true → i ≠ .txnStart →
      s.txnState.inFlight = false → BusTraffic s u →
      (∀ a, u.spRead a ≠ s.spRead a → ∃ n, i = .busRbytes n ∧ a < n.toNat) → Effect s i (u.respond f)
  /-- An accepted CRC command. -/
  | crc {i : Instr} (c : Byte) (f : RspFields) : (i = .crcClr ∨ (∃ d, i = .crcUpd d) ∨ ∃ n, i = .crcBuf n) →
      Effect s i ((s.setCrc c).respond f)
  | start : s.txnState.inFlight = false →
      Effect s .txnStart (((((s.setTxn .apc).setErr .noError).setPollCnt 0).setSpIdx 0).respond {})
  | txnStep {t : State} : SequencerMove s t → Effect s .txnStep t
  | abort : Effect s .txnAbort (((((s.setTxn .idle).setErr .noError).setPollCnt 0).setSpIdx 0).respond {})

/-- Gating answers BUSY or lets the operation run (R201). -/
theorem Effect.gated {s : State} {i : Instr} {op : State → State}
    (h : s.txnState.inFlight = false → Effect s i (op s)) : Effect s i (s.gated op) := by
  cases hs : s.txnState.inFlight with
  | true => rw [State.gated_busy s op hs]; exact .answer i _
  | false => rw [State.gated_free s op hs]; exact h hs

/-- Slots that store nothing: the scratchpad is as it was. -/
theorem Effect.slots {s u : State} {i : Instr} (f : RspFields) (hi : i.gated = true) (hne : i ≠ .txnStart)
    (hfree : s.txnState.inFlight = false) (hb : BusTraffic s u) (hsp : u.sp = s.sp) : Effect s i (u.respond f) :=
  .bus f hi hne hfree hb fun a ha => absurd (by rw [State.spRead, State.spRead, hsp]) ha

theorem busRbytes_effect (s : State) (n : BitVec 4) (hn : countLegal n = true)
    (hfree : s.txnState.inFlight = false) : Effect s (.busRbytes n) ((s.readBytesInto 0 n.toNat).respond {}) := by
  have hle : n.toNat ≤ Config.spLen := ((countLegal_iff n).mp hn).2
  refine .bus {} rfl nofun hfree (readBytesInto_traffic s 0 n.toNat (by omega)) fun a ha => ⟨n, rfl, ?_⟩
  rw [State.readBytesInto_spRead] at ha
  by_contra hge
  exact ha (if_neg (by omega))

/-- What an instruction that answers a next state has written, by its arm of `exec`. -/
theorem exec_effect {i : Instr} {s t : State} (h : exec i s = .next t) : Effect s i t := by
  cases i with
  | busReset =>
    cases h
    exact .gated fun hfree => .slots _ rfl nofun hfree (busReset_traffic s) (by rw [State.busReset_eq])
  | busWbit b =>
    cases h
    exact .gated fun hfree => .slots _ rfl nofun hfree (slotWrite_traffic s b) (by rw [State.slotWrite_eq])
  | busRbit =>
    cases h
    exact .gated fun hfree => .slots _ rfl nofun hfree (slotRead_traffic s) (by rw [State.slotRead_eq])
  | busWbyte d =>
    cases h
    exact .gated fun hfree => .slots _ rfl nofun hfree (writeByte_traffic s d) (by rw [State.writeByte_eq])
  | busRbyte =>
    cases h
    exact .gated fun hfree => .slots _ rfl nofun hfree (readByte_traffic s) (by rw [State.readByte_eq]; rfl)
  | busRbytes n =>
    cases h
    split
    · next hn => exact .gated (busRbytes_effect s n hn)
    · exact .answer _ _
  | spRd k =>
    change execSpRd k s = .next t at h
    unfold execSpRd at h
    split at h
    · split at h <;> cases h
      exact .answer _ _
    · cases h; exact .answer _ _
  | crcClr => cases h; exact .crc _ _ (.inl rfl)
  | crcUpd d => cases h; exact .crc _ _ (.inr (.inl ⟨d, rfl⟩))
  | crcBuf n =>
    change execCrcBuf n s = .next t at h
    unfold execCrcBuf at h
    split at h
    · split at h <;> cases h
      exact .crc _ _ (.inr (.inr ⟨n, rfl⟩))
    · cases h; exact .answer _ _
  | txnStart => cases h; exact .gated .start
  | txnStep => exact .txnStep (txnStep_move h)
  | txnAbort => cases h; exact .abort
  | txnStatus => cases h; exact .answer _ _

/-- Settles O43, by what the instruction can have written. -/
theorem onlyTheNamedCommandsWriteARegister : Obligations.OnlyTheNamedCommandsWriteARegister := by
  intro i s t h
  cases exec_effect h with
  | answer => simp
  | bus f hi hne _ hb hsp =>
    refine ⟨fun _ => .inr ⟨hi, hne⟩, absurd hb.crc, ?sequencer, ?temp, fun a ha => .inr (hsp a ha),
      fun _ => .inr ⟨hi, hne⟩, hb.params, hb.inputs⟩
    case sequencer => simp [hb.txn, hb.err, hb.poll, hb.idx]
    case temp => simp [hb.tempHi, hb.tempLo]
  | crc c f hi => exact ⟨absurd rfl, fun _ => hi, absurd rfl, absurd rfl, fun _ => absurd rfl, absurd rfl, rfl, rfl⟩
  | start =>
    exact ⟨absurd rfl, absurd rfl, fun _ => .inl rfl, absurd rfl, fun _ => absurd rfl, absurd rfl, rfl, rfl⟩
  | txnStep hm =>
    obtain ⟨hcrc, hparams, hinputs⟩ := hm.frame
    exact ⟨fun _ => .inl rfl, absurd hcrc, fun _ => .inr (.inl rfl), fun _ => rfl, fun _ _ => .inl rfl,
      fun _ => .inl rfl, hparams, hinputs⟩
  | abort =>
    exact ⟨absurd rfl, absurd rfl, fun _ => .inr (.inr rfl), absurd rfl, fun _ => absurd rfl, absurd rfl, rfl, rfl⟩

/-! ### The invariant, state by state -/

/-- The clauses of the invariant that hold in every TXN_STATE alike: of the parameters, LINE_DRIVE and the
scratchpad's storage. -/
structure Standing (p : Config.Params) (l : LineDrive) (m : Memory) : Prop where
  pollRange : pollLimitInRange p = true
  chunkRange : spChunkInRange p = true
  line : l = .released
  spForm : m.wf

/-- The clauses of the invariant for a machine whose TXN_STATE is this one. -/
def StandsAt (s : State) : TxnState → Prop
  | .idle => s.errVariant = .noError ∧ s.spIdx = 0 ∧ s.pollCnt = 0
  | .apc => s.errVariant = .noError ∧ s.spIdx = 0 ∧ s.pollCnt = 0
  | .wcd => s.errVariant = .noError ∧ s.spIdx = 0 ∧ pollLimitReached s.params s.pollCnt = false
  | .apr => s.errVariant = .noError ∧ s.spIdx = 0
  | .rsp => s.errVariant = .noError ∧ s.spIdx.toNat < Config.spLen ∧ ∀ i, i < s.spIdx.toNat → s.spW i = true
  | .done => s.errVariant = .noError ∧ s.spIdx = 9 ∧ (∀ i, i < s.spIdx.toNat → s.spW i = true) ∧
      s.tempLo &&& 0x0F = 0
  | .err => s.errVariant ≠ .noError ∧ s.spIdx = 0 ∧ (s.tempHi, s.tempLo) = sentinel s.errVariant

theorem Invariant.standing {s : State} (h : Invariant s) : Standing s.params s.lineDrive s.sp :=
  ⟨h.pollRange, h.chunkRange, h.line, h.spForm⟩

theorem Invariant.noError {s : State} (h : Invariant s) (hs : s.txnState ≠ .err) : s.errVariant = .noError :=
  by_contra fun hv => hs (h.errIff.mp hv)

theorem Invariant.standsAt {s : State} (h : Invariant s) {q : TxnState} (hq : s.txnState = q) : StandsAt s q := by
  have herr (hne : q ≠ .err) : s.errVariant = .noError := h.noError (hq ▸ hne)
  have hzero (hrsp : q ≠ .rsp) (hdone : q ≠ .done) : s.spIdx = 0 := h.idxElse (hq ▸ hrsp) (hq ▸ hdone)
  cases q with
  | idle => exact ⟨herr nofun, hzero nofun nofun, h.pollZero (.inl hq)⟩
  | apc => exact ⟨herr nofun, hzero nofun nofun, h.pollZero (.inr hq)⟩
  | wcd => exact ⟨herr nofun, hzero nofun nofun, h.pollBelow hq⟩
  | apr => exact ⟨herr nofun, hzero nofun nofun⟩
  | rsp => exact ⟨herr nofun, h.idxRsp hq, h.written (.inl hq)⟩
  | done => exact ⟨herr nofun, h.idxDone hq, h.written (.inr hq), h.doneTemp hq⟩
  | err => exact ⟨h.errIff.mpr hq, hzero nofun nofun, h.errTemp hq⟩

theorem Standing.invariant {s : State} (hst : Standing s.params s.lineDrive s.sp) {q : TxnState}
    (hq : s.txnState = q) (hat : StandsAt s q) : Invariant s := by
  constructor
  case pollRange => exact hst.pollRange
  case chunkRange => exact hst.chunkRange
  case line => exact hst.line
  case spForm => exact hst.spForm
  all_goals cases q <;> simp_all [StandsAt]

/-! ### What keeps the invariant -/

theorem Standing.frame {s t : State} (h : Standing s.params s.lineDrive s.sp) (k : KeepsSequencer s t) :
    Standing t.params t.lineDrive t.sp :=
  ⟨k.params ▸ h.pollRange, k.params ▸ h.chunkRange, k.line h.line, k.spForm h.spForm⟩

theorem StandsAt.frame {s t : State} {q : TxnState} (h : StandsAt s q) (k : KeepsSequencer s t) : StandsAt t q := by
  have hw (hs : ∀ i, i < s.spIdx.toNat → s.spW i = true) : ∀ i, i < s.spIdx.toNat → t.spW i = true :=
    fun i hi => k.written i (hs i hi)
  cases q with
  | idle => simpa only [StandsAt, k.err, k.idx, k.poll] using h
  | apc => simpa only [StandsAt, k.err, k.idx, k.poll] using h
  | wcd => simpa only [StandsAt, k.err, k.idx, k.poll, k.params] using h
  | apr => simpa only [StandsAt, k.err, k.idx] using h
  | rsp =>
    simp only [StandsAt, k.err, k.idx] at h ⊢
    obtain ⟨hv, hi, hs⟩ := h
    exact ⟨hv, hi, hw hs⟩
  | done =>
    simp only [StandsAt, k.err, k.idx, k.tempLo] at h ⊢
    obtain ⟨hv, hi, hs, ht⟩ := h
    exact ⟨hv, hi, hw hs, ht⟩
  | err => simpa only [StandsAt, k.err, k.idx, k.tempHi, k.tempLo] using h

theorem Invariant.frame {s t : State} (h : Invariant s) (k : KeepsSequencer s t) : Invariant t :=
  (h.standing.frame k).invariant k.txn ((h.standsAt rfl).frame k)

theorem Invariant.respond {s : State} (h : Invariant s) (f : RspFields) : Invariant (s.respond f) :=
  h.frame (keepsSequencer_of_others s ..)

theorem Invariant.setCrc {s : State} (h : Invariant s) (c : Byte) : Invariant (s.setCrc c) :=
  h.frame (keepsSequencer_of_others s ..)

theorem Invariant.popInput {s : State} (h : Invariant s) : Invariant s.popInput :=
  h.frame (keepsSequencer_of_others s ..)

/-- A block reset starts from the reset values, with the parameters the machine has. -/
theorem Invariant.blockReset {s : State} (h : Invariant s) : Invariant s.blockReset :=
  Standing.invariant (q := .idle) ⟨h.pollRange, h.chunkRange, rfl, .nil, nofun⟩ rfl ⟨rfl, rfl, rfl⟩

/-- Every error is entered with SP_IDX at 0, and leaves its sentinel (R168). -/
theorem Standing.enterError {s : State} (h : Standing s.params s.lineDrive s.sp) (hidx : s.spIdx = 0)
    {v : ErrVariant} (hv : v ≠ .noError) : Invariant (s.enterError v) :=
  Standing.invariant (q := .err) h rfl ⟨hv, hidx, rfl⟩

/-- A limit in R8's range is at least 1, so no busy poll at all does not reach it. -/
theorem pollLimitReached_zero {p : Config.Params} (h : pollLimitInRange p = true) : pollLimitReached p 0 = false := by
  unfold pollLimitReached
  split
  · rfl
  · next l hl =>
    obtain ⟨hpos, -⟩ := (pollLimitInRange_iff p).mp h l hl
    exact decide_eq_false (Nat.not_le_of_lt hpos)

/-- The low byte of a reading ends in four zeros (R175). -/
theorem tempField_low_nibble (b0 b1 : Byte) : (tempField b0 b1).2 &&& 0x0F = 0 := by
  simp only [tempField]
  revert b0
  decide

/-! ### The reads of one step in RSP (R169, R170) -/

theorem rspAfterReads_standing {s : State} (h : Standing s.params s.lineDrive s.sp) :
    Standing s.rspAfterReads.params s.rspAfterReads.lineDrive s.rspAfterReads.sp :=
  Standing.frame (t := s.readBytesInto s.spIdx.toNat s.chunk) h (chunk_traffic s).toKeepsSequencer

/-- SP_IDX advances by the bytes read, never past 9 (R169). -/
theorem rspAfterReads_spIdx {s : State} (h : s.spIdx.toNat < Config.spLen) :
    s.rspAfterReads.spIdx.toNat = s.spIdx.toNat + s.chunk ∧ s.rspAfterReads.spIdx.toNat ≤ Config.spLen := by
  have hle : s.spIdx.toNat + s.chunk ≤ 9 := by
    simp only [State.chunk, Config.spLen] at h ⊢
    omega
  have hidx : s.rspAfterReads.spIdx.toNat = s.spIdx.toNat + s.chunk := by
    simp only [State.rspAfterReads, State.setSpIdx_spIdx, BitVec.toNat_ofNat]
    omega
  exact ⟨hidx, hidx ▸ hle⟩

/-- The bytes counted before the step stay written, and those it reads become written (R66). -/
theorem rspAfterReads_written {s : State} (h : ∀ i, i < s.spIdx.toNat → s.spW i = true) :
    ∀ i, i < s.spIdx.toNat + s.chunk → s.rspAfterReads.spW i = true := by
  intro i hi
  change (s.readBytesInto s.spIdx.toNat s.chunk).spW i = true
  rcases Nat.lt_or_ge i s.spIdx.toNat with hlt | hge
  · exact (chunk_traffic s).written i (h i hlt)
  · rw [State.spW, State.readBytesInto_spRead, if_pos ⟨hge, hi⟩, List.getElem?_eq_getElem]
    · rfl
    · rw [State.nextBytes_length]; omega

/-! ### Every transition keeps the invariant -/

/-- After its bus traffic the machine still meets what the invariant says of its state. -/
theorem Invariant.traffic {s u : State} {q : TxnState} (h : Invariant s) (hq : s.txnState = q)
    (hb : BusTraffic s u) : Standing u.params u.lineDrive u.sp ∧ StandsAt u q :=
  ⟨h.standing.frame hb.toKeepsSequencer, (h.standsAt hq).frame hb.toKeepsSequencer⟩

theorem SequencerMove.invariant {s t : State} (h : Invariant s) (hm : SequencerMove s t) : Invariant t := by
  cases hm with
  | quiet => exact h.respond _
  | convert hs hb =>
    obtain ⟨hu, hv, hidx, -⟩ := h.traffic hs hb
    exact Standing.invariant (q := .wcd) hu rfl ⟨hv, hidx, pollLimitReached_zero hu.pollRange⟩
  | absentForConvert hs hb =>
    obtain ⟨hu, -, hidx, -⟩ := h.traffic hs hb
    exact hu.enterError hidx nofun
  | conversionDone hs hb =>
    obtain ⟨hu, hv, hidx, -⟩ := h.traffic hs hb
    exact Standing.invariant (q := .apr) hu rfl ⟨hv, hidx⟩
  | busyPoll hs hb hlim =>
    obtain ⟨hu, hv, hidx, -⟩ := h.traffic hs hb
    exact Standing.invariant (q := .wcd) hu (hb.txn.trans hs) ⟨hv, hidx, hb.params ▸ hlim⟩
  | @lastPoll u hs hb _ =>
    obtain ⟨hu, -, hidx, -⟩ := h.traffic hs hb
    exact Standing.enterError (s := u.setPollCnt (pollCntNext s.pollCnt)) hu hidx nofun
  | read hs hb =>
    obtain ⟨hu, hv, -⟩ := h.traffic hs hb
    exact Standing.invariant (q := .rsp) hu rfl
      ⟨hv, Nat.zero_lt_succ 8, fun _ hi => absurd hi (Nat.not_lt_zero _)⟩
  | absentForRead hs hb =>
    obtain ⟨hu, -, hidx⟩ := h.traffic hs hb
    exact hu.enterError hidx nofun
  | chunk hs hne =>
    obtain ⟨hv, hlt, hw⟩ := h.standsAt hs
    obtain ⟨hidx, hle⟩ := rspAfterReads_spIdx hlt
    have hb := chunk_traffic s
    have hlt' : s.rspAfterReads.spIdx.toNat < Config.spLen :=
      lt_of_le_of_ne hle fun he => hne (BitVec.eq_of_toNat_eq he)
    exact Standing.invariant (q := .rsp) (rspAfterReads_standing h.standing) (hb.txn.trans hs)
      ⟨hb.err.trans hv, hlt', fun i hi => rspAfterReads_written hw i (hidx ▸ hi)⟩
  | @complete b0 b1 f hs hnine _ _ =>
    obtain ⟨hv, hlt, hw⟩ := h.standsAt hs
    obtain ⟨hidx, -⟩ := rspAfterReads_spIdx hlt
    exact Standing.invariant (q := .done) (rspAfterReads_standing h.standing) rfl
      ⟨(chunk_traffic s).err.trans hv, hnine, fun i hi => rspAfterReads_written hw i (hidx ▸ hi),
        tempField_low_nibble b0 b1⟩

theorem Effect.invariant {s t : State} {i : Instr} (h : Invariant s) (he : Effect s i t) : Invariant t := by
  cases he with
  | answer => exact h.respond _
  | bus f _ _ _ hb _ => exact (h.frame hb.toKeepsSequencer).respond f
  | crc c f _ => exact (h.setCrc c).respond f
  | start => exact Standing.invariant (q := .apc) h.standing rfl ⟨rfl, rfl, rfl⟩
  | txnStep hm => exact hm.invariant h
  | abort => exact Standing.invariant (q := .idle) h.standing rfl ⟨rfl, rfl, rfl⟩

theorem exec_keeps_invariant {i : Instr} {s t : State} (h : Invariant s) (he : exec i s = .next t) : Invariant t :=
  (exec_effect he).invariant h

/-- Settles O49: the ports' input is taken, and then nothing is written, or reset values, or an instruction's
effect. -/
theorem everyStepKeepsTheInvariant : Obligations.EveryStepKeepsTheInvariant := by
  intro s t h hstep
  rcases step_next_cases hstep with ⟨rfl, -⟩ | ⟨rfl, -⟩ | ⟨w, rest, -, ⟨e, -, rfl⟩ | ⟨i, -, he⟩⟩
  · exact h.popInput
  · exact h.popInput.blockReset
  · exact h.popInput.respond _
  · exact exec_keeps_invariant h.popInput he

/-! ### The state after reset -/

theorem chosenParams_pollLimitInRange : pollLimitInRange Config.chosenParams = true := by
  rw [pollLimitInRange_iff]
  intro l hl
  obtain ⟨c, -, rfl⟩ := Option.map_eq_some_iff.mp hl
  have := c.isLt
  omega

theorem chosenParams_spChunkInRange : spChunkInRange Config.chosenParams = true := by
  rw [spChunkInRange_iff]
  have := Config.spChunkChoice.isLt
  simp only [Config.chosenParams]
  omega

/-- Settles O17: each register's value in `State.reset`. -/
theorem resetStateValues : Obligations.ResetStateValues :=
  ⟨rfl, rfl, rfl, rfl, rfl, fun _ => rfl, rfl, rfl, rfl⟩

/-- Settles O48: the chosen parameters are in range, and the rest is IDLE's reset values. -/
theorem invariantHoldsAtReset : Obligations.InvariantHoldsAtReset :=
  Standing.invariant (q := .idle) ⟨chosenParams_pollLimitInRange, chosenParams_spChunkInRange, rfl, .nil, nofun⟩
    rfl ⟨rfl, rfl, rfl⟩

end Sys2Proof.Machine

/-! PROOFS. The storage and access rules of 20_memory.md: how many slots each command moves (R57, with R109 and R127),
and that a read inside the block is idempotent (R60). -/

namespace Sys2Proof.Machine

/-! ### What each bus operation appends to TRACE -/

@[simp] theorem State.busReset_trace (s : State) : s.busReset.2.trace = s.trace ++ [.reset s.presenceAnswer] := by
  rw [State.busReset_eq]

@[simp] theorem State.slotWrite_trace (s : State) (b : Bool) : (s.slotWrite b).trace = s.trace ++ [.w b] := by
  rw [State.slotWrite_eq]

@[simp] theorem State.slotRead_trace (s : State) : s.slotRead.2.trace = s.trace ++ [.r s.bitAnswer] := by
  rw [State.slotRead_eq]

@[simp] theorem State.writeByte_trace (s : State) (d : Byte) : (s.writeByte d).trace = s.trace ++ writeSlots d := by
  rw [State.writeByte_eq]

@[simp] theorem State.readByte_trace (s : State) : s.readByte.2.trace = s.trace ++ readSlots (s.nextBits 8) := by
  rw [State.readByte_eq, State.afterReads]

@[simp] theorem State.readBytesInto_trace (s : State) (a n : Nat) :
    (s.readBytesInto a n).trace = s.trace ++ readSlots (s.nextBits (8 * n)) := by
  rcases Nat.eq_zero_or_pos n with rfl | hn
  · exact (List.append_nil _).symm
  · rw [State.readBytesInto_eq s a n hn, State.afterReads]

@[simp] theorem readSlots_length (l : List Bool) : (readSlots l).length = l.length := List.length_map _

@[simp] theorem writeSlots_length (d : Byte) : (writeSlots d).length = 8 := rfl

/-! ### The slots of a command (R57, R109, R127) -/

/-- The slots an accepted command other than TXN.STEP performs, with the sensor's answers in them. -/
def commandEvents (s : State) : Instr → Trace
  | .busReset => [.reset s.presenceAnswer]
  | .busWbit b => [.w b]
  | .busRbit => [.r s.bitAnswer]
  | .busWbyte d => writeSlots d
  | .busRbyte => readSlots (s.nextBits 8)
  | .busRbytes n => readSlots (s.nextBits (8 * n.toNat))
  | .spRd _ => []
  | .crcClr => []
  | .crcUpd _ => []
  | .crcBuf _ => []
  | .txnStart => []
  | .txnStep => []
  | .txnAbort => []
  | .txnStatus => []

@[simp] theorem commandEvents_length (s : State) (i : Instr) : (commandEvents s i).length = commandSlots i := by
  cases i with
  | busWbyte d => exact writeSlots_length d
  | busRbyte => exact (readSlots_length _).trans (s.nextBits_length 8)
  | busRbytes n => exact (readSlots_length _).trans (s.nextBits_length _)
  | _ => rfl

/-- The command is performed: it is legal, and not gated by a transaction in flight (R202). -/
abbrev Accepted (s : State) (i : Instr) : Prop :=
  i.wellFormed = true ∧ ¬ (i.gated = true ∧ s.txnState.inFlight = true)

/-- A gated command performs its slots, or answers BUSY and performs none (R107, R201). -/
theorem gated_trace {i : Instr} {s : State} {op : State → State} (hwf : i.wellFormed = true) (hg : i.gated = true)
    (hop : (op s).trace = s.trace ++ commandEvents s i) :
    (s.gated op).trace = s.trace ++ if Accepted s i then commandEvents s i else [] := by
  by_cases hs : s.txnState.inFlight = true
  · rw [State.gated_busy s op hs, if_neg fun ha => ha.2 ⟨hg, hs⟩, List.append_nil, State.reject_trace]
  · rw [State.gated_free s op (Bool.eq_false_of_not_eq_true hs), if_pos ⟨hwf, fun hb => hs hb.2⟩, hop]

/-- A command that does not need the bus performs no slot, accepted or not (R33, R34). -/
theorem ungated_trace {i : Instr} {s t : State} (hg : i.gated = false) (hi : i ≠ .txnStep)
    (h : exec i s = .next t) : t.trace = s.trace := by
  obtain ⟨-, -, -, -, -, htrace, -⟩ := onlyTheNamedCommandsWriteARegister i s t h
  by_contra hne
  rcases htrace hne with rfl | ⟨hgated, -⟩
  · exact hi rfl
  · exact nomatch hg.symm.trans hgated

theorem commandEvents_of_ungated (s : State) {i : Instr} (hg : i.gated = false) : commandEvents s i = [] := by
  cases i with
  | busReset | busWbit _ | busRbit | busWbyte _ | busRbyte | busRbytes _ => cases hg
  | _ => rfl

/-- What a command other than TXN.STEP that answers a next state appends to TRACE. -/
theorem exec_trace {i : Instr} {s t : State} (hi : i ≠ .txnStep) (h : exec i s = .next t) :
    t.trace = s.trace ++ if Accepted s i then commandEvents s i else [] := by
  rcases Bool.eq_false_or_eq_true i.gated with hg | hg
  · cases i with
    | busReset => cases h; exact gated_trace rfl rfl s.busReset_trace
    | busWbit b => cases h; exact gated_trace rfl rfl (s.slotWrite_trace b)
    | busRbit => cases h; exact gated_trace rfl rfl s.slotRead_trace
    | busWbyte d => cases h; exact gated_trace rfl rfl (s.writeByte_trace d)
    | busRbyte => cases h; exact gated_trace rfl rfl s.readByte_trace
    | busRbytes n =>
      cases h
      split
      · next hn => exact gated_trace hn rfl (s.readBytesInto_trace 0 n.toNat)
      · next hn => rw [if_neg fun ha => hn ha.1, List.append_nil, State.reject_trace]
    | txnStart => cases h; exact gated_trace rfl rfl (List.append_nil s.trace).symm
    | _ => cases hg
  · rw [commandEvents_of_ungated s hg, ite_self, List.append_nil, ungated_trace hg hi h]

/-- Settles O44: the slots performed are `commandEvents`, or none where the command is rejected. -/
theorem slotsPerCommand : Obligations.SlotsPerCommand := by
  intro i s t hi h
  exact ⟨_, exec_trace hi h, by split <;> simp⟩

/-! ### The reads inside the block (R60) -/

theorem exec_spRd_of_illegal (s : State) {k : BitVec 4} (hk : indexLegal k = false) :
    exec (.spRd k) s = .next (s.reject .illegal) := by
  simp [exec, execSpRd, hk]

theorem exec_spRd_of_written {s : State} {k : BitVec 4} {v : Byte} (hk : indexLegal k = true)
    (hv : s.spRead k.toNat = some v) : exec (.spRd k) s = .next (s.respond { data0 := v }) := by
  simp [exec, execSpRd, hk, hv]

theorem exec_spRd_of_unwritten {s : State} {k : BitVec 4} (hk : indexLegal k = true)
    (hv : s.spRead k.toNat = none) : exec (.spRd k) s = .fault .unwrittenScratchpadRead := by
  simp [exec, execSpRd, hk, hv]

/-- A read inside the block depends on nothing that an earlier response `g` changes. -/
theorem internalRead_after_respond {i : Instr} {s t : State} (hi : i = .txnStatus ∨ ∃ k, i = .spRd k)
    (h : exec i s = .next t) :
    ∃ f, t = s.respond f ∧ ∀ g, exec i (s.respond g) = .next ((s.respond g).respond f) := by
  rcases hi with rfl | ⟨k, rfl⟩
  · cases h
    exact ⟨_, rfl, fun _ => rfl⟩
  · cases hk : indexLegal k with
    | false =>
      rw [exec_spRd_of_illegal s hk] at h
      cases h
      exact ⟨_, rfl, fun g => exec_spRd_of_illegal _ hk⟩
    | true =>
      cases hv : s.spRead k.toNat with
      | none =>
        rw [exec_spRd_of_unwritten hk hv] at h
        cases h
      | some v =>
        rw [exec_spRd_of_written hk hv] at h
        cases h
        exact ⟨_, rfl, fun g => exec_spRd_of_written hk hv⟩

/-- Settles O58: the second read comes after the first one's response and answers the same fields, in the same
TXN_STATE and ERR_VARIANT. -/
theorem internalReadsAreIdempotent : Obligations.InternalReadsAreIdempotent := by
  intro i s t hi h
  obtain ⟨f, rfl, hagain⟩ := internalRead_after_respond hi h
  exact ⟨rspWord f s.txnState s.errVariant, rfl, hagain f⟩

end Sys2Proof.Machine

/-! PROOFS. The command word (30_encoding.md R70 to R76, R94): decoding and encoding are inverse, the decoder follows
R72's table, and what is answered ILLEGAL. -/

namespace Sys2Proof

open Sys2Proof.Machine

/-! ### From the fields of a word to the word -/

/-- A word whose three fields are known (R70). -/
theorem packWord_of_fields {w : CmdWord} {op n : BitVec 4} {d : Byte} (hop : (opField w).toNat = op.toNat)
    (hn : nField w = n) (hd : dataField w = d) : packWord op n d = w := by
  rw [← BitVec.eq_of_toNat_eq hop, ← hn, ← hd, packWord_fields]

/-- A byte whose bits 7:1 are 0 is its bit 0 (R74). -/
theorem zext8_bit_zero {d : Byte} (h : d >>> 1 = 0) : zext8 (d.getLsbD 0) = d := by
  revert d; decide

/-- The same, with those bits masked out (R72). -/
theorem zext8_of_mask {d : Byte} (h : d &&& 0xFE = 0) : zext8 (d.getLsbD 0) = d := by
  revert d; decide

/-! ### A word that decodes is its instruction's word, form by form (R75, R76) -/

/-- The word is the one legal encoding of the instruction. -/
def IsWordOf (w : CmdWord) (i : Instr) : Prop := i.wellFormed = true ∧ encode i = w

theorem isWordOf_of_decodePlain {w : CmdWord} {op : BitVec 4} {i j : Instr} (hop : (opField w).toNat = op.toNat)
    (h : decodePlain w j = .ok i) (hwf : j.wellFormed = true) (henc : encode j = packWord op 0 0) :
    IsWordOf w i := by
  obtain ⟨rfl, hn, hd⟩ := decodePlain_eq_ok.mp h
  exact ⟨hwf, henc.trans (packWord_of_fields hop hn hd)⟩

theorem isWordOf_of_decodeData {w : CmdWord} {op : BitVec 4} {i : Instr} {mk : Byte → Instr}
    (hop : (opField w).toNat = op.toNat) (h : decodeData w mk = .ok i) (hwf : ∀ d, (mk d).wellFormed = true)
    (henc : ∀ d, encode (mk d) = packWord op 0 d) : IsWordOf w i := by
  obtain ⟨rfl, hn⟩ := decodeData_eq_ok.mp h
  exact ⟨hwf _, (henc _).trans (packWord_of_fields hop hn rfl)⟩

theorem isWordOf_of_decodeN {w : CmdWord} {op : BitVec 4} {i : Instr} {legal : BitVec 4 → Bool}
    {mk : BitVec 4 → Instr} (hop : (opField w).toNat = op.toNat) (h : decodeN w legal mk = .ok i)
    (hwf : ∀ n, (mk n).wellFormed = legal n) (henc : ∀ n, encode (mk n) = packWord op n 0) : IsWordOf w i := by
  obtain ⟨rfl, hd, hn⟩ := decodeN_eq_ok.mp h
  exact ⟨(hwf _).trans hn, (henc _).trans (packWord_of_fields hop rfl hd)⟩

theorem isWordOf_of_decodeBit {w : CmdWord} {i : Instr} (hop : (opField w).toNat = 2)
    (h : decodeBit w .busWbit = .ok i) : IsWordOf w i := by
  obtain ⟨rfl, hn, hd⟩ := decodeBit_eq_ok.mp h
  exact ⟨rfl, packWord_of_fields hop hn (zext8_bit_zero hd).symm⟩

/-- OP selects the form. -/
theorem isWordOf_of_decode {w : CmdWord} {i : Instr} (h : decode w = .ok i) : IsWordOf w i := by
  unfold decode at h
  split at h
  · next hop => exact isWordOf_of_decodePlain (op := 0x1) hop h rfl rfl
  · next hop => exact isWordOf_of_decodeBit hop h
  · next hop => exact isWordOf_of_decodePlain (op := 0x3) hop h rfl rfl
  · next hop => exact isWordOf_of_decodeData (op := 0x4) hop h (fun _ => rfl) (fun _ => rfl)
  · next hop => exact isWordOf_of_decodePlain (op := 0x5) hop h rfl rfl
  · next hop => exact isWordOf_of_decodeN (op := 0x6) hop h (fun _ => rfl) (fun _ => rfl)
  · next hop => exact isWordOf_of_decodeN (op := 0x7) hop h (fun _ => rfl) (fun _ => rfl)
  · next hop => exact isWordOf_of_decodePlain (op := 0x8) hop h rfl rfl
  · next hop => exact isWordOf_of_decodeData (op := 0x9) hop h (fun _ => rfl) (fun _ => rfl)
  · next hop => exact isWordOf_of_decodeN (op := 0xA) hop h (fun _ => rfl) (fun _ => rfl)
  · next hop => exact isWordOf_of_decodePlain (op := 0xB) hop h rfl rfl
  · next hop => exact isWordOf_of_decodePlain (op := 0xC) hop h rfl rfl
  · next hop => exact isWordOf_of_decodePlain (op := 0xD) hop h rfl rfl
  · next hop => exact isWordOf_of_decodePlain (op := 0xE) hop h rfl rfl
  · cases h

/-- Settles O2: the form of each OP leaves no bit of the word open. -/
theorem onlyEncodedWordsDecode : Obligations.OnlyEncodedWordsDecode := fun _ _ h => isWordOf_of_decode h

/-! ### Decoding an instruction's word (R70 to R74) -/

/-- Settles O1: OP selects the form of the instruction's operation, and the form finds the operand in its field. -/
theorem decodeOfEncodeRoundTrip : Obligations.DecodeOfEncodeRoundTrip := by
  intro i hwf
  cases i with
  | busWbit b => cases b <;> rfl
  | busWbyte d => simp [encode, decode, decodeData]
  | crcUpd d => simp [encode, decode, decodeData]
  | busRbytes n => simp [encode, decode, decodeN, show countLegal n = true from hwf]
  | spRd k => simp [encode, decode, decodeN, show indexLegal k = true from hwf]
  | crcBuf n => simp [encode, decode, decodeN, show countLegal n = true from hwf]
  | _ => rfl

/-! ### The opcode table (R72, R73) -/

/-- Every well-formed instruction has its row. -/
theorem tableRow_of_wellFormed (i : Instr) : Laws.TableRow.Statement i := by
  cases i with
  | busReset => exact Laws.TableRow.busReset
  | busWbit b => exact Laws.TableRow.busWbit b
  | busRbit => exact Laws.TableRow.busRbit
  | busWbyte d => exact Laws.TableRow.busWbyte d
  | busRbyte => exact Laws.TableRow.busRbyte
  | busRbytes n => exact Laws.TableRow.busRbytes n
  | spRd k => exact Laws.TableRow.spRd k
  | crcClr => exact Laws.TableRow.crcClr
  | crcUpd d => exact Laws.TableRow.crcUpd d
  | crcBuf n => exact Laws.TableRow.crcBuf n
  | txnStart => exact Laws.TableRow.txnStart
  | txnStep => exact Laws.TableRow.txnStep
  | txnAbort => exact Laws.TableRow.txnAbort
  | txnStatus => exact Laws.TableRow.txnStatus

/-- A masked word shows each field masked. -/
theorem and_packWord_eq_iff {w : CmdWord} {o n mo mn : BitVec 4} {d md : Byte} :
    w &&& packWord mo mn md = packWord o n d ↔
      opField w &&& mo = o ∧ nField w &&& mn = n ∧ dataField w &&& md = d := by
  rw [← packWord_inj, ← packWord_and, packWord_fields]

theorem setWidth_eq_dataField (w : CmdWord) : w.setWidth 8 = dataField w :=
  BitVec.setWidth_eq_extractLsb' (by omega)

theorem shiftRight_setWidth_eq_nField (w : CmdWord) : (w >>> 8).setWidth 4 = nField w := by
  apply BitVec.eq_of_toNat_eq
  simp [nField]

theorem getLsbD_zero_eq_dataField (w : CmdWord) : w.getLsbD 0 = (dataField w).getLsbD 0 := by
  simp [dataField]

/-- The row of an operation without operands: the whole word is compared. -/
theorem packWord_of_plainMask {w : CmdWord} {op : BitVec 4}
    (h : w &&& packWord (.allOnes 4) (.allOnes 4) (.allOnes 8) = packWord op 0 0) : packWord op 0 0 = w := by
  obtain ⟨hop, hn, hd⟩ := and_packWord_eq_iff.mp h
  rw [BitVec.and_allOnes] at hop hn hd
  rw [← hop, ← hn, ← hd, packWord_fields]

/-- The row of an operation whose operand is DATA. -/
theorem packWord_of_dataMask {w : CmdWord} {op : BitVec 4}
    (h : w &&& packWord (.allOnes 4) (.allOnes 4) 0 = packWord op 0 0) : packWord op 0 (w.setWidth 8) = w := by
  obtain ⟨hop, hn, -⟩ := and_packWord_eq_iff.mp h
  rw [BitVec.and_allOnes] at hop hn
  rw [← hop, ← hn, setWidth_eq_dataField, packWord_fields]

/-- The row of an operation whose operand is N. -/
theorem packWord_of_nMask {w : CmdWord} {op : BitVec 4}
    (h : w &&& packWord (.allOnes 4) 0 (.allOnes 8) = packWord op 0 0) :
    packWord op ((w >>> 8).setWidth 4) 0 = w := by
  obtain ⟨hop, -, hd⟩ := and_packWord_eq_iff.mp h
  rw [BitVec.and_allOnes] at hop hd
  rw [← hop, ← hd, shiftRight_setWidth_eq_nField, packWord_fields]

/-- The row of BUS.WBIT: DATA[0] is not compared. -/
theorem packWord_of_bitMask {w : CmdWord} {op : BitVec 4}
    (h : w &&& packWord (.allOnes 4) (.allOnes 4) 0xFE = packWord op 0 0) :
    packWord op 0 (zext8 (w.getLsbD 0)) = w := by
  obtain ⟨hop, hn, hd⟩ := and_packWord_eq_iff.mp h
  rw [BitVec.and_allOnes] at hop hn
  rw [← hop, ← hn, getLsbD_zero_eq_dataField, zext8_of_mask hd, packWord_fields]

/-- The operand N that a row reads, as the number its range is about. -/
theorem toNat_shiftRight_setWidth (w : CmdWord) : ((w >>> 8).setWidth 4).toNat = w.toNat / 256 % 16 := by
  rw [shiftRight_setWidth_eq_nField, nField_toNat]

/-- A row that selects a word reads the instruction whose word it is. -/
theorem isWordOf_of_selects {r : OpcodeRow} {w : CmdWord} (hr : r ∈ opcodeRows) (h : r.selects w) :
    IsWordOf w (r.instr w) := by
  obtain ⟨hm, hlo, hhi⟩ := h
  have hcount (h1 : 1 ≤ w.toNat / 256 % 16) (h9 : w.toNat / 256 % 16 ≤ 9) :
      countLegal ((w >>> 8).setWidth 4) = true := by
    rw [countLegal_iff, toNat_shiftRight_setWidth]; exact ⟨h1, h9⟩
  have hindex (h8 : w.toNat / 256 % 16 ≤ 8) : indexLegal ((w >>> 8).setWidth 4) = true := by
    rw [indexLegal_iff, toNat_shiftRight_setWidth]; exact h8
  simp only [opcodeRows, List.mem_cons, List.not_mem_nil, or_false] at hr
  rcases hr with rfl | rfl | rfl | rfl | rfl | rfl | rfl | rfl | rfl | rfl | rfl | rfl | rfl | rfl
  · exact ⟨rfl, packWord_of_plainMask hm⟩
  · exact ⟨rfl, packWord_of_bitMask hm⟩
  · exact ⟨rfl, packWord_of_plainMask hm⟩
  · exact ⟨rfl, packWord_of_dataMask hm⟩
  · exact ⟨rfl, packWord_of_plainMask hm⟩
  · exact ⟨hcount hlo hhi, packWord_of_nMask hm⟩
  · exact ⟨hindex hhi, packWord_of_nMask hm⟩
  · exact ⟨rfl, packWord_of_plainMask hm⟩
  · exact ⟨rfl, packWord_of_dataMask hm⟩
  · exact ⟨hcount hlo hhi, packWord_of_nMask hm⟩
  · exact ⟨rfl, packWord_of_plainMask hm⟩
  · exact ⟨rfl, packWord_of_plainMask hm⟩
  · exact ⟨rfl, packWord_of_plainMask hm⟩
  · exact ⟨rfl, packWord_of_plainMask hm⟩

/-- Decoding and encoding are inverse (R70 to R76). -/
theorem decode_eq_ok_iff {w : CmdWord} {i : Instr} : decode w = .ok i ↔ IsWordOf w i :=
  ⟨isWordOf_of_decode, fun ⟨hwf, hw⟩ => hw ▸ decodeOfEncodeRoundTrip i hwf⟩

/-- Settles O3: the instruction's word has the instruction's row, and a row's word is the word of what it reads. -/
theorem decodeFollowsTheOpcodeTable : Obligations.DecodeFollowsTheOpcodeTable := by
  intro w i
  rw [decode_eq_ok_iff]
  constructor
  · rintro ⟨hwf, rfl⟩
    obtain ⟨r, hr, hsel, hi⟩ := tableRow_of_wellFormed i hwf
    exact ⟨r, hr, hsel, hi.symm⟩
  · rintro ⟨r, hr, hsel, rfl⟩
    exact isWordOf_of_selects hr hsel

/-- Settles O8: the decoder refuses a word without a row, and `step` rejects what the decoder refuses. -/
theorem wordOffTheTableIsIllegal : Obligations.WordOffTheTableIsIllegal := by
  intro w hoff s rest hin
  cases hd : decode w with
  | ok i =>
    obtain ⟨r, hr, hsel, -⟩ := (decodeFollowsTheOpcodeTable w i).mp hd
    exact absurd hsel (hoff r hr)
  | error e => rw [step_of_word hin, hd]; rfl

/-- Settles O4: the decoder evaluated on each of the spec's words. -/
theorem specExampleWordsDecode : Obligations.SpecExampleWordsDecode := by
  unfold Obligations.SpecExampleWordsDecode
  decide

theorem exec_busRbytes_of_illegal (s : State) {n : BitVec 4} (hn : countLegal n = false) :
    exec (.busRbytes n) s = .next (s.reject .illegal) := by
  simp [exec, execBusRbytes, hn]

theorem exec_crcBuf_of_illegal (s : State) {n : BitVec 4} (hn : countLegal n = false) :
    exec (.crcBuf n) s = .next (s.reject .illegal) := by
  simp [exec, execCrcBuf, hn]

/-- Settles O10: three operations have an N, and each checks its range before anything else. -/
theorem illFormedTermsAnswerIllegal : Obligations.IllFormedTermsAnswerIllegal := by
  intro i s hwf
  cases i with
  | busRbytes n => exact exec_busRbytes_of_illegal s hwf
  | spRd k => exact exec_spRd_of_illegal s hwf
  | crcBuf n => exact exec_crcBuf_of_illegal s hwf
  | _ => cases hwf

end Sys2Proof

/-! PROOFS. The response word as a number and its fields (30_encoding.md R77 to R83), and the words the assembler emits
(R92, R93). -/

namespace Sys2Proof.Machine

/-! ### The response word (R77 to R83) -/

/-- Settles O5: each concatenation shifts what stands before it, and a shift distributes over OR. -/
theorem responseWordClosedForm : Obligations.ResponseWordClosedForm := by
  intro f ts ev
  simp only [rspWord, BitVec.toNat_append, Nat.shiftLeft_or_distrib, ← Nat.shiftLeft_add, BitVec.toNat_ofBool]
  simp

@[simp] theorem rspData0_rspWord (f : RspFields) (ts : TxnState) (ev : ErrVariant) :
    rspData0 (rspWord f ts ev) = f.data0 := by
  simp (disch := omega) only [rspData0, rspWord, BitVec.extractLsb'_append_eq_of_add_le]
  simp

@[simp] theorem rspData1_rspWord (f : RspFields) (ts : TxnState) (ev : ErrVariant) :
    rspData1 (rspWord f ts ev) = f.data1 := by
  simp (disch := omega) only [rspData1, rspWord, BitVec.extractLsb'_append_eq_of_add_le,
    BitVec.extractLsb'_append_eq_of_le]
  simp

@[simp] theorem rspTxnState_rspWord (f : RspFields) (ts : TxnState) (ev : ErrVariant) :
    rspTxnState (rspWord f ts ev) = ts.code := by
  simp (disch := omega) only [rspTxnState, rspWord, BitVec.extractLsb'_append_eq_of_add_le,
    BitVec.extractLsb'_append_eq_of_le]
  simp

@[simp] theorem rspErrVariant_rspWord (f : RspFields) (ts : TxnState) (ev : ErrVariant) :
    rspErrVariant (rspWord f ts ev) = ev.code := by
  simp (disch := omega) only [rspErrVariant, rspWord, BitVec.extractLsb'_append_eq_of_add_le,
    BitVec.extractLsb'_append_eq_of_le]
  simp

@[simp] theorem rspStatus_rspWord (f : RspFields) (ts : TxnState) (ev : ErrVariant) :
    rspStatus (rspWord f ts ev) = f.status.code := by
  simp (disch := omega) only [rspStatus, rspWord, BitVec.extractLsb'_append_eq_of_add_le,
    BitVec.extractLsb'_append_eq_of_le]
  simp

@[simp] theorem rspDone_rspWord (f : RspFields) (ts : TxnState) (ev : ErrVariant) :
    rspDone (rspWord f ts ev) = f.done := by
  simp only [rspDone, rspWord, BitVec.getLsbD_append]
  simp

@[simp] theorem rspPresence_rspWord (f : RspFields) (ts : TxnState) (ev : ErrVariant) :
    rspPresence (rspWord f ts ev) = f.presence := by
  simp only [rspPresence, rspWord, BitVec.getLsbD_append]
  simp

theorem rspWord_bit19 (f : RspFields) (ts : TxnState) (ev : ErrVariant) : (rspWord f ts ev).getLsbD 19 = false := by
  simp only [rspWord, BitVec.getLsbD_append]
  simp

theorem rspWord_bits31to26 (f : RspFields) (ts : TxnState) (ev : ErrVariant) :
    (rspWord f ts ev).extractLsb' 26 6 = 0 := by
  simp (disch := omega) only [rspWord, BitVec.extractLsb'_append_eq_of_le]
  simp

theorem Status.code_ne_three (st : Status) : st.code ≠ 3 := by
  cases st <;> decide

theorem Status.code_eq_zero_iff (st : Status) : st.code = 0 ↔ st = .ok := by
  cases st <;> decide

/-- Settles O6: each field read from the concatenation. -/
theorem responseFieldsAtTheirBits : Obligations.ResponseFieldsAtTheirBits := fun f ts ev =>
  ⟨rspData0_rspWord f ts ev, rspData1_rspWord f ts ev, rspTxnState_rspWord f ts ev, rspErrVariant_rspWord f ts ev,
    rspDone_rspWord f ts ev, rspPresence_rspWord f ts ev, rspStatus_rspWord f ts ev,
    rspStatus_rspWord f ts ev ▸ f.status.code_ne_three, rspWord_bit19 f ts ev, rspWord_bits31to26 f ts ev⟩

/-! ### The assembler (R92, R93) -/

/-- Every operand that the form admits makes a well-formed instruction. -/
def AsmForm.Legal : AsmForm → Prop
  | .plain i => i.wellFormed = true
  | .bit => True
  | .byte mk => ∀ d, (mk d).wellFormed = true
  | .count mk => ∀ n, (mk n).wellFormed = countLegal n
  | .index mk => ∀ i, (mk i).wellFormed = indexLegal i

theorem asmNames_legal : ∀ r ∈ asmNames, r.2.Legal := by
  simp [asmNames, AsmForm.Legal, Instr.wellFormed]

theorem asmPseudo_legal : ∀ r ∈ asmPseudo, r.2.Legal := by
  simp [asmPseudo, AsmForm.Legal, Instr.wellFormed, countLegal_iff]

theorem asmLookup_legal {m : List Char} {f : AsmForm} (h : asmLookup m = some f) : f.Legal := by
  obtain ⟨r, hr, rfl⟩ := Option.map_eq_some_iff.mp h
  rcases List.mem_append.mp (List.mem_of_find?_eq_some hr) with hn | hp
  · exact asmNames_legal r hn
  · exact asmPseudo_legal r hp

/-- The operand's range is the one that R73 gives the operation. -/
theorem asmOperand_wellFormed {f : AsmForm} {v : Nat} {i : Instr} (hf : f.Legal) (h : asmOperand f v = .ok i) :
    i.wellFormed = true := by
  cases f with
  | plain j => cases h
  | bit =>
    simp only [asmOperand] at h
    split at h <;> cases h
    rfl
  | byte mk =>
    simp only [asmOperand] at h
    split at h <;> cases h
    exact hf _
  | count mk =>
    simp only [asmOperand] at h
    split at h
    · next hv => cases h; exact (hf _).trans hv.2
    · cases h
  | index mk =>
    simp only [asmOperand] at h
    split at h
    · next hv => cases h; exact (hf _).trans hv.2
    · cases h

theorem asmInstr_wellFormed {f : AsmForm} {operands : List (List Char)} {i : Instr} (hf : f.Legal)
    (h : asmInstr f operands = .ok i) : i.wellFormed = true := by
  unfold asmInstr at h
  split at h
  · cases h; exact hf
  · cases h
  · split at h
    · exact asmOperand_wellFormed hf h
    · split at h <;> cases h
  · cases h

/-- A line's word is the word of a well-formed instruction. -/
theorem assembleLine_word {line : List Char} {w : CmdWord} (h : assembleLine line = .ok (some w)) :
    ∃ i : Instr, i.wellFormed = true ∧ encode i = w := by
  unfold assembleLine at h
  split at h
  · cases h
  · split at h
    · cases h
    · next hf =>
      split at h
      · next i hi => cases h; exact ⟨i, asmInstr_wellFormed (asmLookup_legal hf) hi, rfl⟩
      · cases h

theorem assembleFrom_word {lines : List (List Char)} {n : Nat} {ws : List CmdWord}
    (h : assembleFrom n lines = .ok ws) {w : CmdWord} (hw : w ∈ ws) :
    ∃ i : Instr, i.wellFormed = true ∧ encode i = w := by
  induction lines generalizing n ws with
  | nil => cases h; cases hw
  | cons line rest ih =>
    unfold assembleFrom at h
    split at h
    · cases h
    · next o hline =>
      split at h
      · next ws' hrest =>
        cases h
        rcases List.mem_append.mp hw with hw | hw
        · exact assembleLine_word (hline.trans (congrArg _ (Option.mem_toList.mp hw)))
        · exact ih hrest hw
      · cases h

/-- Settles O59: an emitted word is a well-formed instruction's word, and such a word decodes to it. -/
theorem assemblerEmitsLegalWords : Obligations.AssemblerEmitsLegalWords := by
  intro lines ws h w hw
  obtain ⟨i, hwf, rfl⟩ := assembleFrom_word h hw
  exact ⟨i, decodeOfEncodeRoundTrip i hwf, hwf⟩

/-- Settles O60: the assembler evaluated on the five names. -/
theorem pseudoInstructionWords : Obligations.PseudoInstructionWords := by
  unfold Obligations.PseudoInstructionWords
  decide

end Sys2Proof.Machine

/-! PROOFS. The sequencer's steps by the sensor's answer, and the phase that the wire carries while a transaction is in
flight (30_encoding.md R86; 43_thermal_transaction.md R164 to R170). -/

namespace Sys2Proof.Machine

/-! ### What each bus operation leaves of the response history -/

@[simp] theorem State.busReset_responses (s : State) : s.busReset.2.responses = s.responses := by
  rw [State.busReset_eq]

@[simp] theorem State.slotWrite_responses (s : State) (b : Bool) : (s.slotWrite b).responses = s.responses := by
  rw [State.slotWrite_eq]

@[simp] theorem State.slotRead_responses (s : State) : s.slotRead.2.responses = s.responses := by
  rw [State.slotRead_eq]

@[simp] theorem State.writeByte_responses (s : State) (d : Byte) : (s.writeByte d).responses = s.responses := by
  rw [State.writeByte_eq]

@[simp] theorem State.readByte_responses (s : State) : s.readByte.2.responses = s.responses := by
  rw [State.readByte_eq, State.afterReads]

@[simp] theorem State.readBytesInto_responses (s : State) (a n : Nat) :
    (s.readBytesInto a n).responses = s.responses := by
  rcases Nat.eq_zero_or_pos n with rfl | hn
  · rfl
  · rw [State.readBytesInto_eq s a n hn, State.afterReads]

/-! ### The step of each in-flight state, by the sensor's answer (R164 to R170) -/

theorem stepApc_of_presence {s : State} (h : s.presenceAnswer = true) :
    s.stepApc =
      State.respond { presence := true }
        { s with
          lineDrive := .released, trace := s.trace ++ convertPhase, presenceIn := s.presenceIn.tail
          pollCnt := 0, txnState := .wcd } := by
  simp [State.stepApc, State.busReset_eq, State.writeByte_eq, h, convertPhase, State.setPollCnt, State.setTxn]

theorem stepApc_of_absence {s : State} (h : s.presenceAnswer = false) :
    s.stepApc = s.busReset.2.enterError .a := by
  simp [State.stepApc, State.busReset_eq, h]

theorem stepWcd_of_released {s : State} (h : s.bitAnswer = true) :
    s.stepWcd = (s.slotRead.2.setTxn .apr).respond {} := by
  simp [State.stepWcd, State.slotRead_eq, h]

theorem stepWcd_of_busy {s : State} (h : s.bitAnswer = false) :
    s.stepWcd =
      if pollLimitReached s.params (pollCntNext s.pollCnt) then
        (s.slotRead.2.setPollCnt (pollCntNext s.pollCnt)).enterError .c
      else (s.slotRead.2.setPollCnt (pollCntNext s.pollCnt)).respond {} := by
  simp [State.stepWcd, State.slotRead_eq, h]

theorem stepApr_of_presence {s : State} (h : s.presenceAnswer = true) :
    s.stepApr =
      State.respond { presence := true }
        { s with
          lineDrive := .released, trace := s.trace ++ readPhase, presenceIn := s.presenceIn.tail
          spIdx := 0, txnState := .rsp } := by
  simp [State.stepApr, State.busReset_eq, State.writeByte_eq, h, readPhase, State.setSpIdx, State.setTxn]

theorem stepApr_of_absence {s : State} (h : s.presenceAnswer = false) :
    s.stepApr = s.busReset.2.enterError .b := by
  simp [State.stepApr, State.busReset_eq, h]

/-- The machine after the ninth byte: the result of SP[0] and SP[1], and DONE. -/
def State.completed (s : State) (temp : Byte × Byte) : State :=
  ((s.rspAfterReads.setTemp temp).setTxn .done).respond { done := true, data1 := temp.1, data0 := temp.2 }

/-- A step of RSP that answers a next state goes on reading or completes (R170). -/
theorem stepRsp_cases {s t : State} (h : s.stepRsp = .next t) :
    t = s.rspAfterReads.respond {} ∨ ∃ temp, t = s.completed temp := by
  simp only [State.stepRsp] at h
  split at h
  · split at h
    · cases h; exact .inr ⟨_, rfl⟩
    · cases h
  · cases h; exact .inl rfl

/-- The arm of TXN.STEP that runs, by TXN_STATE, with the next state it answers (R163). -/
inductive TxnStepArm (s : State) : State → Prop where
  | quiet : s.txnState.inFlight = false → TxnStepArm s s.stepQuiet
  | apc : s.txnState = .apc → TxnStepArm s s.stepApc
  | wcd : s.txnState = .wcd → TxnStepArm s s.stepWcd
  | apr : s.txnState = .apr → TxnStepArm s s.stepApr
  | rsp {t : State} : s.txnState = .rsp → s.stepRsp = .next t → TxnStepArm s t

theorem exec_txnStep_arm {s t : State} (h : exec .txnStep s = .next t) : TxnStepArm s t := by
  change execTxnStep s = .next t at h
  unfold execTxnStep at h
  split at h
  · next hs => cases h; exact .quiet (congrArg _ hs)
  · next hs => cases h; exact .quiet (congrArg _ hs)
  · next hs => cases h; exact .quiet (congrArg _ hs)
  · next hs => cases h; exact .apc hs
  · next hs =>
    split at h <;> cases h
    exact .wcd hs
  · next hs => cases h; exact .apr hs
  · next hs =>
    split at h
    · exact .rsp hs h
    · cases h

/-! ### A run of bytes and its bits (R52, R53, R121) -/

/-- The bits come in slot order, bit 0 first. -/
theorem getElem_byteOfBits (l : List Bool) {k : Nat} (hk : k < 8) : (byteOfBits l)[k] = l[k]?.getD false := by
  induction l generalizing k with
  | nil => simp [byteOfBits]
  | cons b l ih =>
    cases k with
    | zero => simp [byteOfBits, zext8]
    | succ k => simp [byteOfBits, zext8, ih (k := k) (by omega)]

/-- Eight bits are the bits of their byte. -/
theorem bitsOf_byteOfBits {l : List Bool} (h : l.length = 8) : bitsOf (byteOfBits l) = l := by
  refine List.ext_getElem (by simp [bitsOf, h]) fun k _ hl => ?_
  have hk : k < 8 := h ▸ hl
  simp [bitsOf, getElem_byteOfBits, hk, hl]

theorem bitsOfBytes_bytesOfBits {l : List Bool} {n : Nat} (h : l.length = 8 * n) :
    bitsOfBytes (bytesOfBits l n) = l := by
  induction n generalizing l with
  | zero => exact (List.length_eq_zero_iff.mp h).symm
  | succ n ih =>
    have htake : (l.take 8).length = 8 := by rw [List.length_take]; omega
    have hdrop : (l.drop 8).length = 8 * n := by rw [List.length_drop]; omega
    calc bitsOfBytes (bytesOfBits l (n + 1))
        = bitsOf (byteOfBits (l.take 8)) ++ bitsOfBytes (bytesOfBits (l.drop 8) n) := List.flatMap_cons
      _ = l.take 8 ++ l.drop 8 := by rw [bitsOf_byteOfBits htake, ih hdrop]
      _ = l := List.take_append_drop 8 l

@[simp] theorem State.bitsOfBytes_nextBytes (s : State) (n : Nat) :
    bitsOfBytes (s.nextBytes n) = s.nextBits (8 * n) :=
  bitsOfBytes_bytesOfBits (s.nextBits_length _)

theorem bitsOfBytes_append (l m : List Byte) : bitsOfBytes (l ++ m) = bitsOfBytes l ++ bitsOfBytes m :=
  List.flatMap_append

theorem readSlots_append (l m : List Bool) : readSlots (l ++ m) = readSlots l ++ readSlots m := List.map_append

/-! ### While a transaction is in flight the wire carries its phase (R86) -/

/-- The trace ends with a convert phase, busy polls and then these read slots; POLL_CNT counts the busy polls. -/
def PollsOnTheWire (s : State) (last : List Bool) : Prop :=
  ∃ before m, s.trace = before ++ convertPhase ++ readSlots (List.replicate m false ++ last) ∧
    s.pollCnt.toNat = min m 65535

/-- The trace ends with a read phase and bytes, which are the first SP_IDX bytes of SP. -/
def ReadsOnTheWire (s : State) : Prop :=
  ∃ before bytes, s.trace = before ++ readPhase ++ readSlots (bitsOfBytes bytes) ∧
    bytes.length = s.spIdx.toNat ∧ ∀ i, i < bytes.length → s.spRead i = bytes[i]?

theorem onTheWire_wcd_iff {s : State} (hs : s.txnState = .wcd) : OnTheWire s ↔ PollsOnTheWire s [] := by
  simp [OnTheWire, hs, PollsOnTheWire]

theorem onTheWire_apr_iff {s : State} (hs : s.txnState = .apr) : OnTheWire s ↔ PollsOnTheWire s [true] := by
  simp [OnTheWire, hs, PollsOnTheWire]

theorem onTheWire_rsp_iff {s : State} (hs : s.txnState = .rsp) : OnTheWire s ↔ ReadsOnTheWire s := by
  simp [OnTheWire, hs, ReadsOnTheWire]

theorem onTheWire_of_not_inFlight {s : State} (hs : s.txnState.inFlight = false) : OnTheWire s := by
  unfold OnTheWire
  split <;> simp_all [TxnState.inFlight]

/-- The busy count is saturating (R24). -/
theorem pollCntNext_toNat {n : BitVec 16} {m : Nat} (h : n.toNat = min m 65535) :
    (pollCntNext n).toNat = min (m + 1) 65535 := by
  rw [pollCntNext, BitVec.toNat_ofNat]
  omega

/-- The convert phase is on the wire, and no busy poll yet. -/
theorem stepApc_onTheWire (s : State) : OnTheWire s.stepApc := by
  cases hp : s.presenceAnswer with
  | false => rw [stepApc_of_absence hp]; trivial
  | true =>
    rw [stepApc_of_presence hp, onTheWire_wcd_iff rfl]
    exact ⟨s.trace, 0, (List.append_nil _).symm, rfl⟩

/-- The poll's answer is the next read slot; a busy one is counted. -/
theorem stepWcd_onTheWire {s : State} (hs : s.txnState = .wcd) (h : PollsOnTheWire s []) : OnTheWire s.stepWcd := by
  obtain ⟨before, m, htrace, hcnt⟩ := h
  have hread (b : Bool) (hb : s.bitAnswer = b) : s.slotRead.2.trace =
      before ++ convertPhase ++ readSlots (List.replicate m false ++ [b]) := by
    rw [State.slotRead_trace, htrace, hb]
    simp [readSlots]
  cases hb : s.bitAnswer with
  | true =>
    rw [stepWcd_of_released hb, onTheWire_apr_iff rfl]
    exact ⟨before, m, hread true hb, (congrArg BitVec.toNat (slotRead_traffic s).poll).trans hcnt⟩
  | false =>
    rw [stepWcd_of_busy hb]
    split
    · trivial
    · have hwcd : (State.respond {} (s.slotRead.2.setPollCnt (pollCntNext s.pollCnt))).txnState = .wcd :=
        (slotRead_traffic s).txn.trans hs
      refine (onTheWire_wcd_iff hwcd).mpr ⟨before, m + 1, ?_, pollCntNext_toNat hcnt⟩
      rw [List.append_nil, List.replicate_succ']
      exact hread false hb

/-- The read phase is on the wire, and no byte yet. -/
theorem stepApr_onTheWire (s : State) : OnTheWire s.stepApr := by
  cases hp : s.presenceAnswer with
  | false => rw [stepApr_of_absence hp]; trivial
  | true =>
    rw [stepApr_of_presence hp, onTheWire_rsp_iff rfl]
    exact ⟨s.trace, [], (List.append_nil _).symm, rfl, nofun⟩

/-- A step's reads extend the bytes on the wire and in SP alike (R170). -/
theorem rspAfterReads_onTheWire {s : State} (hidx : s.spIdx.toNat < Config.spLen) (h : ReadsOnTheWire s) :
    ReadsOnTheWire s.rspAfterReads := by
  obtain ⟨before, bytes, htrace, hlen, hsp⟩ := h
  refine ⟨before, bytes ++ s.nextBytes s.chunk, ?trace, ?length, fun i hi => ?sp⟩
  case trace =>
    rw [State.rspAfterReads, State.setSpIdx_trace, State.readBytesInto_trace, htrace, bitsOfBytes_append,
      State.bitsOfBytes_nextBytes, readSlots_append, ← List.append_assoc]
  case length =>
    rw [(rspAfterReads_spIdx hidx).1, List.length_append, hlen, State.nextBytes_length]
  case sp =>
    rw [List.length_append, State.nextBytes_length] at hi
    change (s.readBytesInto s.spIdx.toNat s.chunk).spRead i = _
    rw [State.readBytesInto_spRead, ← hlen]
    split
    · next hnew => rw [List.getElem?_append_right hnew.1]
    · next hold =>
      have hlt : i < bytes.length := by omega
      rw [List.getElem?_append_left hlt, hsp i hlt]

theorem txnStep_onTheWire {s t : State} (hinv : Invariant s) (h : OnTheWire s) (he : exec .txnStep s = .next t) :
    OnTheWire t := by
  cases exec_txnStep_arm he with
  | quiet hs => exact onTheWire_of_not_inFlight hs
  | apc _ => exact stepApc_onTheWire s
  | wcd hs => exact stepWcd_onTheWire hs ((onTheWire_wcd_iff hs).mp h)
  | apr _ => exact stepApr_onTheWire s
  | rsp hs hrsp =>
    rcases stepRsp_cases hrsp with rfl | ⟨temp, rfl⟩
    · have hstill : (s.rspAfterReads.respond {}).txnState = .rsp := (chunk_traffic s).txn.trans hs
      exact (onTheWire_rsp_iff hstill).mpr
        (rspAfterReads_onTheWire (hinv.idxRsp hs) ((onTheWire_rsp_iff hs).mp h))
    · trivial

/-- No instruction but TXN.STEP touches TRACE while a transaction stays in flight (R107). -/
theorem exec_onTheWire {i : Instr} {s t : State} (hinv : Invariant s) (h : OnTheWire s) (he : exec i s = .next t) :
    OnTheWire t := by
  by_cases hi : i = .txnStep
  · subst hi
    exact txnStep_onTheWire hinv h he
  · cases exec_effect he with
    | answer => exact h
    | bus f _ _ hfree hb _ => exact onTheWire_of_not_inFlight ((congrArg _ hb.txn).trans hfree)
    | crc => exact h
    | start => trivial
    | txnStep => exact absurd rfl hi
    | abort => trivial

/-- Settles O50: a block reset leaves no transaction in flight, and an instruction keeps the phase or moves to the
next one. -/
theorem everyStepKeepsThePhaseOnTheWire : Obligations.EveryStepKeepsThePhaseOnTheWire := by
  refine ⟨trivial, fun s t hinv h hstep => ?_⟩
  rcases step_next_cases hstep with ⟨rfl, -⟩ | ⟨rfl, -⟩ | ⟨w, rest, -, ⟨e, -, rfl⟩ | ⟨i, -, he⟩⟩
  · exact h
  · trivial
  · exact h
  · exact exec_onTheWire hinv.popInput h he

end Sys2Proof.Machine

/-! PROOFS. What the response to a command says: the state after it (30_encoding.md R80), a presence that was seen
(R81), and the completion of a transaction (R82). -/

namespace Sys2Proof.Machine

/-! ### What a response says of its command -/

/-- A command that decodes as `d` performs a reset slot in state `s`, and the slot sees presence (R81). -/
def SeesPresence (d : Except DecodeError Instr) (s : State) : Prop :=
  s.presenceAnswer = true ∧
    ((d = .ok .busReset ∧ s.txnState.inFlight = false) ∨
      (d = .ok .txnStep ∧ (s.txnState = .apc ∨ s.txnState = .apr)))

/-- A TXN.STEP from `s` to `t` ends the transaction in flight (R82). -/
def Completes (d : Except DecodeError Instr) (s t : State) : Prop :=
  d = .ok .txnStep ∧ s.txnState.inFlight = true ∧ t.txnState.hasResult = true

/-- The one response of a command that takes `s` to `t`, and what its fields report; `d` is the decoder's answer on
the command word. -/
structure Reports (d : Except DecodeError Instr) (s t : State) (f : RspFields) : Prop where
  response : t.responses = s.responses ++ [rspWord f t.txnState t.errVariant]
  rejected : f.status ≠ .ok → t.txnState = s.txnState ∧ t.errVariant = s.errVariant
  presence : f.presence = true ↔ SeesPresence d s
  done : f.done = true ↔ Completes d s t
  result : f.done = true → f.data1 = t.tempHi ∧ f.data0 = t.tempLo

/-- Only BUS.RESET and TXN.STEP make a reset slot. -/
theorem not_seesPresence {d : Except DecodeError Instr} {s : State} (hr : d ≠ .ok .busReset)
    (ht : d ≠ .ok .txnStep) : ¬ SeesPresence d s := by
  rintro ⟨-, ⟨hd, -⟩ | ⟨hd, -⟩⟩
  · exact hr hd
  · exact ht hd

theorem not_completes {d : Except DecodeError Instr} {s t : State} (ht : d ≠ .ok .txnStep) : ¬ Completes d s t :=
  fun hc => ht hc.1

/-- What a TXN.STEP sees, without the case of BUS.RESET. -/
theorem seesPresence_txnStep_iff {s : State} :
    SeesPresence (.ok .txnStep) s ↔ s.presenceAnswer = true ∧ (s.txnState = .apc ∨ s.txnState = .apr) := by
  simp [SeesPresence]

/-- Taking the port's input is not part of what a response reports. -/
theorem Reports.of_inputTaken {d : Except DecodeError Instr} {s t : State} {rest : List Input} {f : RspFields}
    (h : Reports d { s with inputs := rest } t f) : Reports d s t f :=
  ⟨h.response, h.rejected, h.presence, h.done, h.result⟩

/-! ### Responses without PRESENCE and DONE -/

/-- A rejection reports neither presence nor completion, so it must not stand for one. -/
theorem reports_reject {d : Except DecodeError Instr} {s : State} (st : Status) (hp : ¬ SeesPresence d s)
    (ht : d ≠ .ok .txnStep) : Reports d s (s.reject st) { status := st } :=
  ⟨rfl, fun _ => ⟨rfl, rfl⟩, iff_of_false nofun hp, iff_of_false nofun (not_completes ht), nofun⟩

/-- A word or a term that is ILLEGAL. -/
theorem reports_illegal {d : Except DecodeError Instr} (s : State) (hr : d ≠ .ok .busReset)
    (ht : d ≠ .ok .txnStep) : ∃ f, Reports d s (s.reject .illegal) f :=
  ⟨_, reports_reject .illegal (not_seesPresence hr ht) ht⟩

/-- A command other than BUS.RESET and TXN.STEP that is performed. -/
theorem reports_data {d : Except DecodeError Instr} {s u : State} (data1 data0 : Byte) (hr : d ≠ .ok .busReset)
    (ht : d ≠ .ok .txnStep) (hu : u.responses = s.responses) :
    ∃ f, Reports d s (u.respond { data1 := data1, data0 := data0 }) f :=
  ⟨_, congrArg (· ++ _) hu, absurd rfl, iff_of_false nofun (not_seesPresence hr ht),
    iff_of_false nofun (not_completes ht), nofun⟩

/-- BUSY is answered in flight only, where BUS.RESET makes no slot (R107, R201). -/
theorem reports_gated {i : Instr} {s : State} {op : State → State} (ht : i ≠ .txnStep)
    (h : s.txnState.inFlight = false → ∃ f, Reports (.ok i) s (op s) f) :
    ∃ f, Reports (.ok i) s (s.gated op) f := by
  cases hs : s.txnState.inFlight with
  | true =>
    rw [State.gated_busy s op hs]
    exact ⟨_, reports_reject .busy (by simp [SeesPresence, hs, ht]) (by simpa using ht)⟩
  | false =>
    rw [State.gated_free s op hs]
    exact h hs

/-! ### BUS.RESET and TXN.STEP -/

theorem reports_busReset {s : State} (hs : s.txnState.inFlight = false) :
    ∃ f, Reports (.ok .busReset) s (s.busReset.2.respond { presence := s.busReset.1 }) f :=
  ⟨_, congrArg (· ++ _) s.busReset_responses, absurd rfl, by simp [SeesPresence, hs, State.busReset_eq],
    iff_of_false nofun (not_completes nofun), nofun⟩

/-- A TXN.STEP that does not end the transaction reports what its reset slot saw, where it made one. -/
theorem reports_stepOn {s u : State} (p : Bool) (hu : u.responses = s.responses)
    (hp : p = true ↔ s.presenceAnswer = true ∧ (s.txnState = .apc ∨ s.txnState = .apr))
    (hd : s.txnState.inFlight = true → u.txnState.hasResult = false) :
    ∃ f, Reports (.ok .txnStep) s (u.respond { presence := p }) f :=
  ⟨_, congrArg (· ++ _) hu, absurd rfl, hp.trans seesPresence_txnStep_iff.symm,
    iff_of_false nofun (by simpa [Completes] using hd), nofun⟩

/-- A TXN.STEP that ends the transaction reports the result; the reset slot of such a step, where it made one, saw no
presence. -/
theorem reports_completion {s u : State} (hu : u.responses = s.responses) (hs : s.txnState.inFlight = true)
    (hres : u.txnState.hasResult = true)
    (hp : ¬ (s.presenceAnswer = true ∧ (s.txnState = .apc ∨ s.txnState = .apr))) :
    ∃ f, Reports (.ok .txnStep) s (u.respond { done := true, data1 := u.tempHi, data0 := u.tempLo }) f :=
  ⟨_, congrArg (· ++ _) hu, absurd rfl, iff_of_false nofun (hp ∘ seesPresence_txnStep_iff.mp),
    iff_of_true rfl ⟨rfl, hs, hres⟩, fun _ => ⟨rfl, rfl⟩⟩

theorem reports_enterError {s u : State} (v : ErrVariant) (hu : u.responses = s.responses)
    (hs : s.txnState.inFlight = true)
    (hp : ¬ (s.presenceAnswer = true ∧ (s.txnState = .apc ∨ s.txnState = .apr))) :
    ∃ f, Reports (.ok .txnStep) s (u.enterError v) f :=
  reports_completion (u := ((u.setErr v).setTemp (sentinel v)).setTxn .err) hu hs rfl hp

theorem stepApc_reports {s : State} (hs : s.txnState = .apc) : ∃ f, Reports (.ok .txnStep) s s.stepApc f := by
  cases hp : s.presenceAnswer with
  | true => rw [stepApc_of_presence hp]; exact reports_stepOn true rfl (by simp [hp, hs]) fun _ => rfl
  | false =>
    rw [stepApc_of_absence hp]
    exact reports_enterError .a s.busReset_responses (congrArg _ hs) (by simp [hp])

theorem stepWcd_reports {s : State} (hs : s.txnState = .wcd) : ∃ f, Reports (.ok .txnStep) s s.stepWcd f := by
  cases hb : s.bitAnswer with
  | true =>
    rw [stepWcd_of_released hb]
    exact reports_stepOn false s.slotRead_responses (by simp [hs]) fun _ => rfl
  | false =>
    rw [stepWcd_of_busy hb]
    split
    · exact reports_enterError .c s.slotRead_responses (congrArg _ hs) (by simp [hs])
    · exact reports_stepOn false s.slotRead_responses (by simp [hs])
        fun _ => congrArg _ ((slotRead_traffic s).txn.trans hs)

theorem stepApr_reports {s : State} (hs : s.txnState = .apr) : ∃ f, Reports (.ok .txnStep) s s.stepApr f := by
  cases hp : s.presenceAnswer with
  | true => rw [stepApr_of_presence hp]; exact reports_stepOn true rfl (by simp [hp, hs]) fun _ => rfl
  | false =>
    rw [stepApr_of_absence hp]
    exact reports_enterError .b s.busReset_responses (congrArg _ hs) (by simp [hp])

theorem stepRsp_reports {s t : State} (hs : s.txnState = .rsp) (h : s.stepRsp = .next t) :
    ∃ f, Reports (.ok .txnStep) s t f := by
  have hresp : s.rspAfterReads.responses = s.responses := s.readBytesInto_responses _ _
  rcases stepRsp_cases h with rfl | ⟨temp, rfl⟩
  · exact reports_stepOn false hresp (by simp [hs]) fun _ => congrArg _ ((chunk_traffic s).txn.trans hs)
  · exact reports_completion (u := (s.rspAfterReads.setTemp temp).setTxn .done) hresp (congrArg _ hs) rfl
      (by simp [hs])

theorem exec_txnStep_reports {s t : State} (h : exec .txnStep s = .next t) : ∃ f, Reports (.ok .txnStep) s t f := by
  cases exec_txnStep_arm h with
  | quiet hs =>
    refine reports_stepOn false rfl (iff_of_false nofun ?_) fun hin => nomatch hs.symm.trans hin
    rintro ⟨-, hq | hq⟩ <;> simp [hq, TxnState.inFlight] at hs
  | apc hs => exact stepApc_reports hs
  | wcd hs => exact stepWcd_reports hs
  | apr hs => exact stepApr_reports hs
  | rsp hs hrsp => exact stepRsp_reports hs hrsp

/-! ### Every command -/

theorem exec_reports {i : Instr} {s t : State} (h : exec i s = .next t) : ∃ f, Reports (.ok i) s t f := by
  cases i with
  | busReset => cases h; exact reports_gated nofun reports_busReset
  | busWbit b => cases h; exact reports_gated nofun fun _ => reports_data 0 0 nofun nofun (s.slotWrite_responses b)
  | busRbit => cases h; exact reports_gated nofun fun _ => reports_data 0 _ nofun nofun s.slotRead_responses
  | busWbyte d => cases h; exact reports_gated nofun fun _ => reports_data 0 0 nofun nofun (s.writeByte_responses d)
  | busRbyte => cases h; exact reports_gated nofun fun _ => reports_data 0 _ nofun nofun s.readByte_responses
  | busRbytes n =>
    cases h
    split
    · exact reports_gated nofun fun _ => reports_data 0 0 nofun nofun (s.readBytesInto_responses 0 n.toNat)
    · exact reports_illegal s nofun nofun
  | spRd k =>
    change execSpRd k s = .next t at h
    unfold execSpRd at h
    split at h
    · split at h <;> cases h
      exact reports_data 0 _ nofun nofun rfl
    · cases h; exact reports_illegal s nofun nofun
  | crcClr => cases h; exact reports_data (u := s.setCrc 0) 0 _ nofun nofun rfl
  | crcUpd d => cases h; exact reports_data (u := s.setCrc (crc8Step s.crcAcc d)) 0 _ nofun nofun rfl
  | crcBuf n =>
    change execCrcBuf n s = .next t at h
    unfold execCrcBuf at h
    split at h
    · split at h <;> cases h
      exact reports_data (u := s.setCrc _) 0 _ nofun nofun rfl
    · cases h; exact reports_illegal s nofun nofun
  | txnStart => cases h; exact reports_gated nofun fun _ => reports_data 0 0 nofun nofun rfl
  | txnStep => exact exec_txnStep_reports h
  | txnAbort => cases h; exact reports_data 0 0 nofun nofun rfl
  | txnStatus =>
    cases h
    split
    · exact reports_data _ _ nofun nofun rfl
    · exact reports_data 0 0 nofun nofun rfl

/-- Every command word that the block answers with a next state has one response, and it reports the transition. -/
theorem step_reports {s t : State} {w : CmdWord} {rest : List Input} (hin : s.inputs = ⟨false, some w⟩ :: rest)
    (h : step s = .next t) : ∃ f, Reports (decode w) s t f := by
  rw [step_of_word hin] at h
  cases hd : decode w with
  | error e =>
    rw [hd] at h
    cases h
    obtain ⟨f, hf⟩ := reports_illegal (d := .error e) { s with inputs := rest } nofun nofun
    exact ⟨f, hf.of_inputTaken⟩
  | ok i =>
    rw [hd] at h
    obtain ⟨f, hf⟩ := exec_reports h
    exact ⟨f, hf.of_inputTaken⟩

/-- Settles O12: the response is made of the state after, and a rejection leaves the state. -/
theorem responseReportsTheStateAfter : Obligations.ResponseReportsTheStateAfter := by
  intro s t w rest hin h
  obtain ⟨f, hf⟩ := step_reports hin h
  refine ⟨_, hf.response, rspTxnState_rspWord .., rspErrVariant_rspWord .., fun hst => hf.rejected ?_⟩
  rwa [rspStatus_rspWord, ne_eq, Status.code_eq_zero_iff] at hst

/-- Settles O13, by what the response reports of its reset slot. -/
theorem presenceBitOnlyForASeenPresence : Obligations.PresenceBitOnlyForASeenPresence := by
  intro s t w rest hin h
  obtain ⟨f, hf⟩ := step_reports hin h
  exact ⟨_, hf.response, by rw [rspPresence_rspWord]; exact hf.presence⟩

/-- Settles O14, by what the response reports of the completion. -/
theorem doneBitOnlyOnCompletion : Obligations.DoneBitOnlyOnCompletion := by
  intro s t w rest hin h
  obtain ⟨f, hf⟩ := step_reports hin h
  refine ⟨_, hf.response, ?_⟩
  rw [rspDone_rspWord, rspData1_rspWord, rspData0_rspWord]
  exact ⟨hf.done, hf.result⟩

end Sys2Proof.Machine

/-! PROOFS. The bus primitives of 40_bus_primitives.md: the words of BUS.RESET, BUS.WBIT and BUS.RBIT and the words of
their OPs that are ILLEGAL (R75), their gating (R201), and the one slot that each performs (R104 to R106). -/

namespace Sys2Proof.Machine

/-! ### Words that the decoder refuses (R75) -/

/-- A word that no instruction is read from is off the table, and so ILLEGAL. -/
theorem rejectedAsIllegal_of_not_decoded {w : CmdWord} (h : ∀ i, decode w ≠ .ok i) : RejectedAsIllegal w :=
  wordOffTheTableIsIllegal w fun r hr hsel =>
    h (r.instr w) ((decodeFollowsTheOpcodeTable w _).mpr ⟨r, hr, hsel, rfl⟩)

/-- An OP without operands has one legal word (R72). -/
theorem rejectedAsIllegal_of_ne_plainWord {w : CmdWord} {op : BitVec 4} {i : Instr} (hop : opField w = op)
    (hdec : decode w = decodePlain w i) (hne : w ≠ packWord op 0 0) : RejectedAsIllegal w := by
  refine rejectedAsIllegal_of_not_decoded fun j hj => hne ?_
  obtain ⟨-, hn, hd⟩ := decodePlain_eq_ok.mp (hdec.symm.trans hj)
  exact (packWord_of_fields (congrArg BitVec.toNat hop) hn hd).symm

/-- The OP of BUS.WBIT has one legal word for each bit (R74). -/
theorem rejectedAsIllegal_of_ne_bitWords {w : CmdWord} (hop : opField w = 0x2)
    (hne : ∀ b, w ≠ encode (.busWbit b)) : RejectedAsIllegal w := by
  refine rejectedAsIllegal_of_not_decoded fun i hi => ?_
  have hbit : decodeBit w .busWbit = .ok i := by simpa [decode, hop] using hi
  obtain ⟨-, henc⟩ := isWordOf_of_decodeBit (congrArg BitVec.toNat hop) hbit
  obtain ⟨rfl, -⟩ := decodeBit_eq_ok.mp hbit
  exact hne _ henc.symm

/-! ### Gating (R201, R202) -/

/-- A legal gated command answers BUSY while a transaction is in flight. -/
theorem exec_gated_of_inFlight {i : Instr} {s : State} (hwf : i.wellFormed = true) (hg : i.gated = true)
    (hs : s.txnState.inFlight = true) : exec i s = .next s.answeredBusy := by
  have hbusy (op : State → State) : s.gated op = s.answeredBusy := s.gated_busy op hs
  cases i with
  | busReset | busWbit _ | busRbit | busWbyte _ | busRbyte | txnStart => exact congrArg Host.Outcome.next (hbusy _)
  | busRbytes n => exact congrArg Host.Outcome.next ((if_pos hwf).trans (hbusy _))
  | _ => cases hg

/-! ### The slot of an accepted bus primitive (R104 to R106) -/

section

variable {s : State} (hs : s.txnState.inFlight = false)
include hs

theorem exec_busReset_of_free :
    exec .busReset s = .next (s.busReset.2.respond { presence := s.busReset.1 }) :=
  congrArg Host.Outcome.next (s.gated_free _ hs)

theorem exec_busWbit_of_free (b : Bool) : exec (.busWbit b) s = .next ((s.slotWrite b).respond {}) :=
  congrArg Host.Outcome.next (s.gated_free _ hs)

theorem exec_busRbit_of_free :
    exec .busRbit s = .next (s.slotRead.2.respond { data0 := zext8 s.slotRead.1 }) :=
  congrArg Host.Outcome.next (s.gated_free _ hs)

end

/-- The bit as the byte that carries it (R106). -/
theorem zext8_eq_ite (b : Bool) : zext8 b = if b then 1 else 0 := by
  cases b <;> rfl

/-- Settles O18: OP 0x1 has one legal word, and an accepted BUS.RESET is its reset slot and the response. -/
theorem busResetSamplesPresence : Obligations.BusResetSamplesPresence := by
  refine ⟨decodeOfEncodeRoundTrip .busReset rfl, fun w hop hne => ?illegal,
    fun s hs => exec_gated_of_inFlight rfl rfl hs, fun s hs => ?accepted⟩
  case illegal => exact rejectedAsIllegal_of_ne_plainWord (i := .busReset) hop (by simp [decode, hop]) hne
  case accepted => rw [exec_busReset_of_free hs, State.busReset_eq, State.respond_eq]

/-- Settles O19: OP 0x2 has two legal words, and an accepted BUS.WBIT is its write slot and the response. -/
theorem busWbitWritesOneSlot : Obligations.BusWbitWritesOneSlot := by
  refine ⟨fun b => ?words, fun w hop h0 h1 => rejectedAsIllegal_of_ne_bitWords hop fun b => ?illegal,
    fun b s hs => exec_gated_of_inFlight rfl rfl hs, fun b s hs => ?accepted⟩
  case words => cases b <;> rfl
  case illegal =>
    cases b with
    | false => exact h0
    | true => exact h1
  case accepted => rw [exec_busWbit_of_free hs, State.slotWrite_eq, State.respond_eq]

/-- Settles O20: OP 0x3 has one legal word, and an accepted BUS.RBIT is its read slot and the response. -/
theorem busRbitReadsOneSlot : Obligations.BusRbitReadsOneSlot := by
  refine ⟨decodeOfEncodeRoundTrip .busRbit rfl, fun w hop hne => ?illegal,
    fun s hs => exec_gated_of_inFlight rfl rfl hs, fun s hs => ?accepted⟩
  case illegal => exact rejectedAsIllegal_of_ne_plainWord (i := .busRbit) hop (by simp [decode, hop]) hne
  case accepted => rw [exec_busRbit_of_free hs, State.slotRead_eq, State.respond_eq, zext8_eq_ite]

end Sys2Proof.Machine

/-! PROOFS. The byte transfers of 41_byte_transfer.md: the words of BUS.WBYTE, BUS.RBYTE, BUS.RBYTES and SP.RD and the
words of their OPs that are ILLEGAL (R73, R75), their gating (R201), and the bytes that each moves (R120 to R126). -/

namespace Sys2Proof.Machine

/-! ### Words with an operand, as the spec writes them (R70) -/

/-- A word is its three fields moved to their places (R70). -/
theorem packWord_eq_or (op n : BitVec 4) (d : Byte) :
    packWord op n d = op.setWidth 16 <<< 12 ||| n.setWidth 16 <<< 8 ||| d.setWidth 16 := by
  apply BitVec.eq_of_getLsbD_eq
  intro i hi
  simp only [packWord, BitVec.getLsbD_append, BitVec.getLsbD_or, BitVec.getLsbD_shiftLeft, BitVec.getLsbD_setWidth]
  rcases Nat.lt_or_ge i 8 with hdata | hdata
  · simp [hi, hdata, show i < 12 by omega]
  · have hd : d.getLsbD i = false := BitVec.getLsbD_of_ge d i hdata
    rcases Nat.lt_or_ge i 12 with hn | hop
    · simp [hi, hd, hn, show ¬ i < 8 by omega, show i - 8 < 4 by omega, show i - 8 < 16 by omega]
    · have hn : n.getLsbD (i - 8) = false := BitVec.getLsbD_of_ge n (i - 8) (by omega)
      simp [hi, hd, hn, show ¬ i < 8 by omega, show ¬ i < 12 by omega, show ¬ i - 8 < 4 by omega,
        show i - 12 < 16 by omega, show i - 8 - 4 = i - 12 by omega]

/-- The word of an operation whose operand is DATA. -/
theorem packWord_data (op : BitVec 4) (d : Byte) :
    packWord op 0 d = op.setWidth 16 <<< 12 ||| d.setWidth 16 := by
  simp [packWord_eq_or]

/-- The word of an operation whose operand is N. -/
theorem packWord_count (op n : BitVec 4) :
    packWord op n 0 = op.setWidth 16 <<< 12 ||| n.setWidth 16 <<< 8 := by
  simp [packWord_eq_or]

/-! ### Words that the decoder refuses (R73, R75) -/

/-- An operation whose operand is DATA has no word with N other than 0 (R72). -/
theorem rejectedAsIllegal_of_decodeData {w : CmdWord} {mk : Byte → Instr} (hdec : decode w = decodeData w mk)
    (hn : nField w ≠ 0) : RejectedAsIllegal w := by
  refine rejectedAsIllegal_of_not_decoded fun i hi => hn ?_
  obtain ⟨-, hzero⟩ := decodeData_eq_ok.mp (hdec.symm.trans hi)
  exact hzero

/-- An operation whose operand is N has no word with N out of range or with DATA other than 0 (R72, R73). -/
theorem rejectedAsIllegal_of_decodeN {w : CmdWord} {legal : BitVec 4 → Bool} {mk : BitVec 4 → Instr}
    (hdec : decode w = decodeN w legal mk) (h : legal (nField w) = false ∨ dataField w ≠ 0) :
    RejectedAsIllegal w := by
  refine rejectedAsIllegal_of_not_decoded fun i hi => ?_
  obtain ⟨-, hd, hlegal⟩ := decodeN_eq_ok.mp (hdec.symm.trans hi)
  rcases h with hn | hd'
  · exact nomatch hn.symm.trans hlegal
  · exact hd' hd

/-! ### The bytes of an accepted transfer (R122 to R124) -/

section

variable {s : State} (hs : s.txnState.inFlight = false)
include hs

theorem exec_busWbyte_of_free (d : Byte) : exec (.busWbyte d) s = .next ((s.writeByte d).respond {}) :=
  congrArg Host.Outcome.next (s.gated_free _ hs)

theorem exec_busRbyte_of_free : exec .busRbyte s = .next (s.readByte.2.respond { data0 := s.readByte.1 }) :=
  congrArg Host.Outcome.next (s.gated_free _ hs)

theorem exec_busRbytes_of_free {n : BitVec 4} (hn : countLegal n = true) :
    exec (.busRbytes n) s = .next ((s.readBytesInto 0 n.toNat).respond {}) :=
  congrArg Host.Outcome.next ((if_pos hn).trans (s.gated_free _ hs))

end

/-! ### Where the bits of a run of bytes stand (R52, R53) -/

theorem getElem?_bitsOf (v : Byte) {k : Nat} (hk : k < 8) : (bitsOf v)[k]? = some (v.getLsbD k) := by
  simp [bitsOf, hk]

/-- Bit `k` of byte `j` is sent in slot `8 * j + k`. -/
theorem getElem?_bitsOfBytes (l : List Byte) (j : Nat) {k : Nat} (hk : k < 8) :
    (bitsOfBytes l)[8 * j + k]? = l[j]?.map fun v => v.getLsbD k := by
  induction l generalizing j with
  | nil => simp [bitsOfBytes]
  | cons v l ih =>
    have hlen : (bitsOf v).length = 8 := rfl
    rw [show bitsOfBytes (v :: l) = bitsOf v ++ bitsOfBytes l from List.flatMap_cons]
    cases j with
    | zero => rw [List.getElem?_append_left (by omega), Nat.mul_zero, Nat.zero_add, getElem?_bitsOf v hk]; rfl
    | succ j =>
      rw [List.getElem?_append_right (by omega), hlen, show 8 * (j + 1) + k - 8 = 8 * j + k by omega, ih]
      rfl

/-- The byte of the next eight samples has the k-th sample as its bit k (R121). -/
theorem State.getElem?_nextBits_eight (s : State) {k : Nat} (hk : k < 8) :
    (s.nextBits 8)[k]? = some ((byteOfBits (s.nextBits 8)).getLsbD k) := by
  rw [← getElem?_bitsOf _ hk, bitsOf_byteOfBits (s.nextBits_length 8)]

/-- Every byte of a run is stored at its address, and its bits are the eight samples of its turn (R124, R126). -/
theorem State.readBytesInto_stores (s : State) {n j : Nat} (hj : j < n) :
    ∃ v : Byte, (s.readBytesInto 0 n).spRead j = some v ∧
      ∀ k, k < 8 → (s.nextBits (8 * n))[8 * j + k]? = some (v.getLsbD k) := by
  have hlen : j < (s.nextBytes n).length := by rwa [State.nextBytes_length]
  have hbyte : (s.nextBytes n)[j]? = some (s.nextBytes n)[j] := List.getElem?_eq_getElem hlen
  refine ⟨(s.nextBytes n)[j], ?stored, fun k hk => ?bit⟩
  case stored => rw [State.readBytesInto_spRead, if_pos (by omega), Nat.sub_zero, hbyte]
  case bit => rw [← State.bitsOfBytes_nextBytes, getElem?_bitsOfBytes _ j hk, hbyte, Option.map_some]

/-- No byte past the run is touched (R124). -/
theorem State.readBytesInto_spRead_of_le (s : State) {n j : Nat} (hj : n ≤ j) :
    (s.readBytesInto 0 n).spRead j = s.spRead j := by
  rw [State.readBytesInto_spRead, if_neg (by omega)]

/-! ### The four commands -/

/-- Settles O23: OP 0x6 has one legal word for each count, and an accepted BUS.RBYTES is its run of bytes and the
response. -/
theorem busRbytesFillsTheScratchpad : Obligations.BusRbytesFillsTheScratchpad := by
  have hlegal (n : BitVec 4) (h1 : 1 ≤ n.toNat) (h9 : n.toNat ≤ 9) : countLegal n = true :=
    (countLegal_iff n).mpr ⟨h1, h9⟩
  refine ⟨fun n h1 h9 => ?words, fun w hop hbad => ?illegal,
    fun n s h1 h9 hs => exec_gated_of_inFlight (hlegal n h1 h9) rfl hs, fun n s h1 h9 hs => ?accepted⟩
  case words =>
    rw [← decodeOfEncodeRoundTrip (.busRbytes n) (hlegal n h1 h9)]
    exact congrArg decode (packWord_count 0x6 n).symm
  case illegal =>
    refine rejectedAsIllegal_of_decodeN (mk := .busRbytes) (legal := countLegal) (by simp [decode, hop]) ?_
    rw [countLegal_eq_false_iff, or_assoc]
    exact hbad
  case accepted =>
    refine ⟨_, exec_busRbytes_of_free hs (hlegal n h1 h9), ?_, fun j hj => s.readBytesInto_stores hj,
      fun j hj => s.readBytesInto_spRead_of_le hj⟩
    rw [State.readBytesInto_eq s 0 n.toNat h1]
    rfl

/-- Settles O21: OP 0x4 has one legal word for each byte, and an accepted BUS.WBYTE is the byte's eight write slots
and the response. -/
theorem busWbyteWritesBitZeroFirst : Obligations.BusWbyteWritesBitZeroFirst := by
  refine ⟨fun d => ?words, fun w hop hn => ?illegal,
    fun d s hs => exec_gated_of_inFlight rfl rfl hs, fun d s hs => ?accepted⟩
  case words =>
    rw [← decodeOfEncodeRoundTrip (.busWbyte d) rfl]
    exact congrArg decode (packWord_data 0x4 d).symm
  case illegal => exact rejectedAsIllegal_of_decodeData (mk := .busWbyte) (by simp [decode, hop]) hn
  case accepted => rw [exec_busWbyte_of_free hs, State.writeByte_eq, State.respond_eq]; rfl

/-- Settles O22: OP 0x5 has one legal word, and an accepted BUS.RBYTE is its eight read slots and the response with
their byte. -/
theorem busRbyteReadsBitZeroFirst : Obligations.BusRbyteReadsBitZeroFirst := by
  refine ⟨decodeOfEncodeRoundTrip .busRbyte rfl, fun w hop hne => ?illegal,
    fun s hs => exec_gated_of_inFlight rfl rfl hs,
    fun s hs => ⟨byteOfBits (s.nextBits 8), fun k hk => s.getElem?_nextBits_eight hk, ?accepted⟩⟩
  case illegal => exact rejectedAsIllegal_of_ne_plainWord (i := .busRbyte) hop (by simp [decode, hop]) hne
  case accepted => rw [exec_busRbyte_of_free hs, State.readByte_eq, State.respond_eq, State.afterReads]

/-- Settles O24: OP 0x7 has one legal word for each index, and SP.RD answers what its address reads as. -/
theorem spRdReadsOneByte : Obligations.SpRdReadsOneByte := by
  have hlegal (i : BitVec 4) (hi : i.toNat ≤ 8) : indexLegal i = true := (indexLegal_iff i).mpr hi
  refine ⟨fun i hi => ?words, fun w hop hbad => ?illegal, fun i s hi hw => ?unwritten,
    fun i s v hi hv => exec_spRd_of_written (hlegal i hi) hv⟩
  case words =>
    rw [← decodeOfEncodeRoundTrip (.spRd i) (hlegal i hi)]
    exact congrArg decode (packWord_count 0x7 i).symm
  case illegal =>
    refine rejectedAsIllegal_of_decodeN (mk := .spRd) (legal := indexLegal) (by simp [decode, hop]) ?_
    rw [indexLegal_eq_false_iff]
    exact hbad
  case unwritten => exact exec_spRd_of_unwritten (hlegal i hi) (by simpa [State.spW] using hw)

end Sys2Proof.Machine

/-! PROOFS. The CRC-8 of 42_crc8.md: the shift register behind crc8_step and what follows from its linearity (R140 to
R142, R146), and CRC.CLR, CRC.UPD and CRC.BUF with the words of their OPs that are ILLEGAL (R143 to R145). -/

namespace Sys2Proof.Machine

/-! ### The shift register (R140) -/

/-- What the bit that leaves the register feeds back into it. -/
def crcFeedback (b : Bool) : Byte := if b then 0x8C else 0

/-- One iteration of R140, on the register with the remaining bits of the data byte already mixed in. -/
def crcShift (x : Byte) : Byte := (x >>> 1) ^^^ crcFeedback (x.getLsbD 0)

theorem crcFeedback_xor (a b : Bool) : crcFeedback (a ^^ b) = crcFeedback a ^^^ crcFeedback b := by
  revert a b; decide

theorem crcShift_xor (x y : Byte) : crcShift (x ^^^ y) = crcShift x ^^^ crcShift y := by
  rw [crcShift, BitVec.ushiftRight_xor_distrib, BitVec.getLsbD_xor, crcFeedback_xor, crcShift, crcShift]
  ac_rfl

theorem iterate_crcShift_xor (n : Nat) (x y : Byte) :
    crcShift^[n] (x ^^^ y) = crcShift^[n] x ^^^ crcShift^[n] y := by
  induction n generalizing x y with
  | zero => rfl
  | succ n ih => rw [Function.iterate_succ_apply, crcShift_xor, ih]; rfl

theorem and_one_eq_one_iff_getLsbD_zero (x : Byte) : x &&& 1 = 1 ↔ x.getLsbD 0 = true := by
  revert x; decide

/-- The register after one iteration of the model's loop. -/
theorem crc8Loop_succ (c d : Byte) (n : Nat) :
    crc8Loop c d (n + 1) = crc8Loop ((c >>> 1) ^^^ crcFeedback ((c ^^^ d).getLsbD 0)) (d >>> 1) n := by
  have hlow := and_one_eq_one_iff_getLsbD_zero (c ^^^ d)
  rw [crc8Loop]
  congr 1
  cases hbit : (c ^^^ d).getLsbD 0 with
  | true => exact if_pos (hlow.mpr hbit)
  | false => exact (if_neg fun h => nomatch hbit.symm.trans (hlow.mp h)).trans BitVec.xor_zero.symm

/-- The loop keeps the register and the rest of the data byte apart; mixed together they are shifted as one. -/
theorem crc8Loop_xor_rest (c d : Byte) (n : Nat) : crc8Loop c d n ^^^ (d >>> n) = crcShift^[n] (c ^^^ d) := by
  induction n generalizing c d with
  | zero => simp [crc8Loop]
  | succ n ih =>
    have hmix : (c >>> 1) ^^^ crcFeedback ((c ^^^ d).getLsbD 0) ^^^ (d >>> 1) = crcShift (c ^^^ d) := by
      rw [crcShift, BitVec.ushiftRight_xor_distrib]
      ac_rfl
    rw [crc8Loop_succ, Nat.add_comm n 1, BitVec.shiftRight_add, ih, hmix, Nat.add_comm 1 n]
    rfl

/-- After eight iterations nothing of the data byte is left beside the register. -/
theorem crc8Step_eq (c d : Byte) : crc8Step c d = crcShift^[8] (c ^^^ d) := by
  have hrest : d >>> 8 = 0#8 := BitVec.ushiftRight_eq_zero (Nat.le_refl 8)
  rw [← crc8Loop_xor_rest, hrest, BitVec.xor_zero, crc8Step]

theorem crc8Step_xor (c1 c2 d1 d2 : Byte) :
    crc8Step (c1 ^^^ c2) (d1 ^^^ d2) = crc8Step c1 d1 ^^^ crc8Step c2 d2 := by
  have hpair : c1 ^^^ c2 ^^^ (d1 ^^^ d2) = c1 ^^^ d1 ^^^ (c2 ^^^ d2) := by ac_rfl
  rw [crc8Step_eq, crc8Step_eq, crc8Step_eq, hpair, iterate_crcShift_xor]

/-- Shifting the register's own value in empties it. -/
theorem crc8Step_self (c : Byte) : crc8Step c c = 0 := by
  have hfixed : crcShift 0 = 0 := rfl
  rw [crc8Step_eq, BitVec.xor_self]
  exact Function.iterate_fixed hfixed 8

theorem crc8_append_singleton (m : List Byte) (d : Byte) : crc8 (m ++ [d]) = crc8Step (crc8 m) d := by
  rw [crc8, List.foldl_append]
  rfl

/-- Settles O28: the last byte shifted in is the register's own value. -/
theorem crcResidueIsZero : Obligations.CrcResidueIsZero := by
  intro m
  rw [crc8_append_singleton, crc8Step_self]

/-- Settles O29: the register takes c and d only as c XOR d, and each of its eight shifts is linear. -/
theorem crcStepIsLinear : Obligations.CrcStepIsLinear := by
  refine ⟨crc8Step_xor, fun c d => ?mixed, by decide⟩
  case mixed => rw [crc8Step_eq, crc8Step_eq 0, show 0 ^^^ (c ^^^ d) = c ^^^ d from BitVec.zero_xor]

/-! ### What the three commands answer (R143 to R145) -/

theorem exec_crcClr (s : State) : exec .crcClr s = .next ((s.setCrc 0).respond {}) := rfl

/-- The state that CRC.UPD answers (R144). -/
def State.crcUpd (s : State) (d : Byte) : State :=
  (s.setCrc (crc8Step s.crcAcc d)).respond { data0 := crc8Step s.crcAcc d }

theorem exec_crcUpd (d : Byte) (s : State) : exec (.crcUpd d) s = .next (s.crcUpd d) := rfl

theorem exec_crcBuf_of_written {s : State} {n : BitVec 4} {l : List Byte} (hn : countLegal n = true)
    (hl : s.spPrefix n.toNat = some l) :
    exec (.crcBuf n) s = .next ((s.setCrc (crc8 l)).respond { data0 := crc8 l }) := by
  simp [exec, execCrcBuf, hn, hl]

theorem exec_crcBuf_of_unwritten {s : State} {n : BitVec 4} (hn : countLegal n = true)
    (hl : s.spPrefix n.toNat = none) : exec (.crcBuf n) s = .fault .unwrittenScratchpadRead := by
  simp [exec, execCrcBuf, hn, hl]

/-! ### A run of CRC.UPD (R141, R144) -/

section

variable (l : List Byte) (s : State)

theorem State.foldl_crcUpd_crcAcc : (l.foldl State.crcUpd s).crcAcc = l.foldl crc8Step s.crcAcc := by
  induction l generalizing s with
  | nil => rfl
  | cons d l ih => exact ih (s.crcUpd d)

theorem State.foldl_crcUpd_trace : (l.foldl State.crcUpd s).trace = s.trace := by
  induction l generalizing s with
  | nil => rfl
  | cons d l ih => exact ih (s.crcUpd d)

theorem State.foldl_crcUpd_responses_length :
    (l.foldl State.crcUpd s).responses.length = s.responses.length + l.length := by
  induction l generalizing s with
  | nil => rfl
  | cons d l ih =>
    have hone : (s.crcUpd d).responses.length = s.responses.length + 1 := List.length_append
    rw [List.foldl_cons, ih, hone, List.length_cons]
    omega

/-- A run of CRC.UPD answers a next state all along. `f` is any way to chain commands that runs the next one on the
state that the last one answered. -/
theorem foldl_exec_crcUpd {f : Host.Outcome State Fault Refusal → Byte → Host.Outcome State Fault Refusal}
    (hf : ∀ d u, f (.next u) d = exec (.crcUpd d) u) : l.foldl f (.next s) = .next (l.foldl State.crcUpd s) := by
  induction l generalizing s with
  | nil => rfl
  | cons d l ih => rw [List.foldl_cons, hf, exec_crcUpd, ih, List.foldl_cons]

end

/-- Settles O30: CRC.CLR starts the run of CRC.UPD at 0x00, where crc8 starts. -/
theorem crcUpdAccumulatesAList : Obligations.CrcUpdAccumulatesAList := by
  intro l s
  refine ⟨_, foldl_exec_crcUpd l ((s.setCrc 0).respond {}) fun _ _ => rfl, State.foldl_crcUpd_crcAcc ..,
    State.foldl_crcUpd_trace .., ?responses⟩
  case responses => rw [State.foldl_crcUpd_responses_length, State.respond_responses, List.length_append]; rfl

/-! ### The three commands -/

/-- Settles O25: OP 0x8 has one legal word, and CRC.CLR is the cleared register and the response. -/
theorem crcClrClearsTheAccumulator : Obligations.CrcClrClearsTheAccumulator := by
  refine ⟨decodeOfEncodeRoundTrip .crcClr rfl, fun w hop hne => ?illegal, exec_crcClr⟩
  case illegal => exact rejectedAsIllegal_of_ne_plainWord (i := .crcClr) hop (by simp [decode, hop]) hne

/-- Settles O26: OP 0x9 has one legal word for each byte, and CRC.UPD is the shifted register and the response. -/
theorem crcUpdShiftsOneByteIn : Obligations.CrcUpdShiftsOneByteIn := by
  refine ⟨fun d => ?words, fun w hop hn => ?illegal, exec_crcUpd⟩
  case words =>
    rw [← decodeOfEncodeRoundTrip (.crcUpd d) rfl]
    exact congrArg decode (packWord_data 0x9 d).symm
  case illegal => exact rejectedAsIllegal_of_decodeData (mk := .crcUpd) (by simp [decode, hop]) hn

/-- One unwritten byte among the first n leaves no list of them. -/
theorem State.spPrefix_eq_none {s : State} {n j : Nat} (hj : j < n) (hw : s.spW j = false) :
    s.spPrefix n = none := by
  rw [← Option.not_isSome_iff_eq_none, State.spPrefix_isSome]
  exact fun hall => nomatch hw.symm.trans (hall j hj)

/-- The list of the first n bytes is the one that agrees with what each address reads as. -/
theorem State.spPrefix_eq_some {s : State} {n : Nat} {l : List Byte} (hlen : l.length = n)
    (hread : ∀ j, j < n → s.spRead j = l[j]?) : s.spPrefix n = some l := by
  have hwritten : (s.spPrefix n).isSome = true := by
    rw [State.spPrefix_isSome]
    intro j hj
    simp [State.spW, hread j hj, hlen, hj]
  obtain ⟨m, hm⟩ := Option.isSome_iff_exists.mp hwritten
  obtain ⟨hmlen, hmread⟩ := s.spPrefix_spec hm
  have hml : m = l := by
    apply List.ext_getElem?
    intro j
    rcases Nat.lt_or_ge j n with hj | hj
    · rw [← hmread j hj, hread j hj]
    · rw [List.getElem?_eq_none (by omega), List.getElem?_eq_none (by omega)]
  rw [hm, hml]

/-- Settles O27: OP 0xA has one legal word for each count, and CRC.BUF answers by what the first n bytes read as. -/
theorem crcBufChecksTheScratchpad : Obligations.CrcBufChecksTheScratchpad := by
  have hlegal (n : BitVec 4) (h1 : 1 ≤ n.toNat) (h9 : n.toNat ≤ 9) : countLegal n = true :=
    (countLegal_iff n).mpr ⟨h1, h9⟩
  refine ⟨fun n h1 h9 => ?words, fun w hop hbad => ?illegal, fun n s h1 h9 hun => ?unwritten,
    fun n s l h1 h9 hlen hread => exec_crcBuf_of_written (hlegal n h1 h9) (State.spPrefix_eq_some hlen hread)⟩
  case words =>
    rw [← decodeOfEncodeRoundTrip (.crcBuf n) (hlegal n h1 h9)]
    exact congrArg decode (packWord_count 0xA n).symm
  case illegal =>
    refine rejectedAsIllegal_of_decodeN (mk := .crcBuf) (legal := countLegal) (by simp [decode, hop]) ?_
    rw [countLegal_eq_false_iff, or_assoc]
    exact hbad
  case unwritten =>
    obtain ⟨j, hj, hw⟩ := hun
    exact exec_crcBuf_of_unwritten (hlegal n h1 h9) (State.spPrefix_eq_none hj hw)

end Sys2Proof.Machine

/-! PROOFS. The sequencer's commands of 43_thermal_transaction.md: the temperature field and the sentinels (R161, R175),
the words of TXN.START, TXN.STEP, TXN.ABORT and TXN.STATUS with the words of their OPs that are ILLEGAL, and what each
command leaves (R162 to R173, R180). -/

namespace Sys2Proof.Machine

/-! ### The temperature field and the sentinels (R161, R168, R175) -/

/-- The two shifts of the high byte have no bit in common, so their union is their sum. -/
theorem shiftedHigh_eq_add (b0 b1 : Byte) :
    b1.toNat <<< 4 ||| b0.toNat >>> 4 = b1.toNat * 16 + b0.toNat / 16 := by
  have hb0 : b0.toNat >>> 4 < 2 ^ 4 := by have := b0.isLt; omega
  rw [← Nat.shiftLeft_add_eq_or_of_lt hb0, Nat.shiftLeft_eq, Nat.shiftRight_eq_div_pow]

/-- The byte's truncation reaches the left shift alone: what is shifted right fits. -/
theorem tempField_fst_toNat (b0 b1 : Byte) :
    (tempField b0 b1).1.toNat = (b1.toNat <<< 4 ||| b0.toNat >>> 4) % 256 := by
  have hb0 : b0.toNat >>> 4 < 2 ^ 8 := by have := b0.isLt; omega
  rw [Nat.or_mod_two_pow (n := 8), Nat.mod_eq_of_lt hb0]
  exact BitVec.toNat_or ..

theorem tempField_snd_toNat (b0 b1 : Byte) : (tempField b0 b1).2.toNat = (b0.toNat <<< 4) % 256 :=
  BitVec.toNat_shiftLeft

/-- Settles O31: both bytes are the truncated shifts, and as one number their bits are adjacent. -/
theorem tempFieldIsTheShiftedReading : Obligations.TempFieldIsTheShiftedReading := by
  refine ⟨fun b0 b1 => ⟨tempField_fst_toNat b0 b1, tempField_snd_toNat b0 b1, ?adjacent⟩, rfl⟩
  case adjacent =>
    rw [tempField_fst_toNat, tempField_snd_toNat, shiftedHigh_eq_add]
    simp only [Nat.shiftLeft_eq]
    omega

/-- What TEMP_LO alone tells: the variant of an error, or NONE for a reading (R175). -/
def variantOfLow (b : Byte) : ErrVariant :=
  if b = 0xFF then .a else if b = 0xFE then .b else if b = 0xFD then .c else .noError

theorem variantOfLow_sentinel (v : ErrVariant) : variantOfLow (sentinel v).2 = v := by
  cases v <;> rfl

theorem variantOfLow_of_low_nibble {b : Byte} (h : b &&& 0x0F = 0) : variantOfLow b = .noError := by
  have hne (c : Byte) (hc : c &&& 0x0F ≠ 0) : b ≠ c := fun he => hc (he ▸ h)
  rw [variantOfLow, if_neg (hne _ (by decide)), if_neg (hne _ (by decide)), if_neg (hne _ (by decide))]

/-- Settles O32: TEMP_LO gives the variant back, and NONE for every reading. -/
theorem sentinelsAreNoReadings : Obligations.SentinelsAreNoReadings := by
  constructor
  · intro b0 b1 v hv he
    have hread := variantOfLow_of_low_nibble (tempField_low_nibble b0 b1)
    rw [he, variantOfLow_sentinel] at hread
    exact hv hread
  · intro v v' _ _ he
    rw [← variantOfLow_sentinel v, he, variantOfLow_sentinel]

/-! ### Nothing on the ports (R160) -/

theorem step_of_quiet {s : State} (h : s.event = .quiet) : step s = .next s.popInput := by
  simp [step, h]

/-- Settles O15: without a reset and without a command the ports' input is taken, if there is one. -/
theorem noCommandNoAction : Obligations.NoCommandNoAction := by
  constructor
  · intro s hin
    have htaken : s.popInput = s := by
      cases s
      cases hin
      rfl
    rw [step_of_quiet (by simp [State.event, hin]), htaken]
  · intro s rest hin
    rw [step_of_quiet (by simp [State.event, hin]), State.popInput, hin, List.tail_cons]

/-! ### TXN.START, TXN.ABORT and TXN.STATUS (R162, R172, R173) -/

theorem exec_txnStart_of_free {s : State} (hs : s.txnState.inFlight = false) :
    exec .txnStart s = .next (((((s.setTxn .apc).setErr .noError).setPollCnt 0).setSpIdx 0).respond {}) :=
  congrArg Host.Outcome.next (s.gated_free _ hs)

theorem exec_txnStatus (s : State) :
    exec .txnStatus s =
      .next (s.respond (if s.txnState.hasResult then { data1 := s.tempHi, data0 := s.tempLo } else {})) := rfl

theorem TxnState.hasResult_iff (q : TxnState) : q.hasResult = true ↔ q = .done ∨ q = .err := by
  cases q <;> simp [TxnState.hasResult]

/-- Settles O33: OP 0xB has one legal word, and an accepted TXN.START is its register writes and the response. -/
theorem txnStartBeginsATransaction : Obligations.TxnStartBeginsATransaction := by
  refine ⟨decodeOfEncodeRoundTrip .txnStart rfl, fun w hop hne => ?illegal,
    fun s hs => exec_gated_of_inFlight rfl rfl hs, fun s hs => exec_txnStart_of_free hs⟩
  case illegal => exact rejectedAsIllegal_of_ne_plainWord (i := .txnStart) hop (by simp [decode, hop]) hne

/-- Settles O41: OP 0xD has one legal word, and TXN.ABORT is its register writes and the response. -/
theorem txnAbortReturnsToIdle : Obligations.TxnAbortReturnsToIdle := by
  refine ⟨decodeOfEncodeRoundTrip .txnAbort rfl, fun w hop hne => ?illegal, fun s => rfl⟩
  case illegal => exact rejectedAsIllegal_of_ne_plainWord (i := .txnAbort) hop (by simp [decode, hop]) hne

/-- Settles O42: OP 0xE has one legal word, and TXN.STATUS is the response that its state has to show. -/
theorem txnStatusShowsTheResult : Obligations.TxnStatusShowsTheResult := by
  refine ⟨decodeOfEncodeRoundTrip .txnStatus rfl, fun w hop hne => ?illegal, fun s hs => ?result,
    fun s hdone herr => ?noResult⟩
  case illegal => exact rejectedAsIllegal_of_ne_plainWord (i := .txnStatus) hop (by simp [decode, hop]) hne
  case result => rw [exec_txnStatus, if_pos ((TxnState.hasResult_iff _).mpr hs), State.respond_eq]
  case noResult =>
    have hnone : ¬ s.txnState.hasResult = true := fun h =>
      ((TxnState.hasResult_iff _).mp h).elim hdone herr
    rw [exec_txnStatus, if_neg hnone, State.respond_eq]

/-! ### The arm of TXN.STEP that runs in each state (R163) -/

section

variable {s : State}

theorem exec_txnStep_of_not_inFlight (hs : s.txnState.inFlight = false) :
    exec .txnStep s = .next (s.respond {}) := by
  change execTxnStep s = _
  unfold execTxnStep
  split
  · rfl
  · rfl
  · rfl
  all_goals next hq => cases (congrArg TxnState.inFlight hq).symm.trans hs

theorem exec_txnStep_of_apc (hs : s.txnState = .apc) : exec .txnStep s = .next s.stepApc := by
  simp only [exec, execTxnStep, hs]

theorem exec_txnStep_of_wcd (hs : s.txnState = .wcd) (hp : pollLimitInRange s.params = true) :
    exec .txnStep s = .next s.stepWcd := by
  simp only [exec, execTxnStep, hs, hp, if_true]

theorem exec_txnStep_of_apr (hs : s.txnState = .apr) : exec .txnStep s = .next s.stepApr := by
  simp only [exec, execTxnStep, hs]

theorem exec_txnStep_of_rsp (hs : s.txnState = .rsp) (hc : spChunkInRange s.params = true) :
    exec .txnStep s = s.stepRsp := by
  simp only [exec, execTxnStep, hs, hc, if_true]

end

/-- Settles O34: OP 0xC has one legal word, and outside a transaction TXN.STEP is its response alone. -/
theorem txnStepOutsideATransactionIsQuiet : Obligations.TxnStepOutsideATransactionIsQuiet := by
  refine ⟨decodeOfEncodeRoundTrip .txnStep rfl, fun w hop hne => ?illegal,
    fun s hs => exec_txnStep_of_not_inFlight hs⟩
  case illegal => exact rejectedAsIllegal_of_ne_plainWord (i := .txnStep) hop (by simp [decode, hop]) hne

/-! ### The resets that await presence (R164, R167) -/

/-- Settles O35: the two arms of APC, after the one reset slot. -/
theorem txnStepAwaitsPresenceForConvert : Obligations.TxnStepAwaitsPresenceForConvert := by
  constructor
  · intro s hs hp
    rw [exec_txnStep_of_apc hs, stepApc_of_absence hp, State.enterError_eq, State.busReset_eq, hp]
    rfl
  · intro s hs hp
    rw [exec_txnStep_of_apc hs, stepApc_of_presence hp, State.respond_eq]
    rfl

/-- Settles O38: the two arms of APR, after the one reset slot. -/
theorem txnStepAwaitsPresenceForRead : Obligations.TxnStepAwaitsPresenceForRead := by
  constructor
  · intro s hs hp
    rw [exec_txnStep_of_apr hs, stepApr_of_absence hp, State.enterError_eq, State.busReset_eq, hp]
    rfl
  · intro s hs hp
    rw [exec_txnStep_of_apr hs, stepApr_of_presence hp, State.respond_eq]
    rfl

/-! ### The conversion polls (R165, R166) -/

theorem pollLimitReached_iff {p : Config.Params} {n : BitVec 16} :
    pollLimitReached p n = true ↔ ∃ l, p.pollLimit = some l ∧ l ≤ n.toNat := by
  unfold pollLimitReached
  split
  · next h => simp [h]
  · next l h => simp [h]

theorem pollLimitReached_eq_false_iff {p : Config.Params} {n : BitVec 16} :
    pollLimitReached p n = false ↔ ∀ l, p.pollLimit = some l → n.toNat < l := by
  simp [← Bool.not_eq_true, pollLimitReached_iff]

/-- Settles O36: the released arm of WCD, after the one read slot. -/
theorem txnStepSeesTheConversionDone : Obligations.TxnStepSeesTheConversionDone := by
  intro s hs hp hb
  rw [exec_txnStep_of_wcd hs hp, stepWcd_of_released hb, State.slotRead_eq, hb]
  rfl

/-- Settles O37: the busy arm of WCD; whether the new count reaches the limit decides. -/
theorem txnStepCountsABusyPoll : Obligations.TxnStepCountsABusyPoll := by
  intro s hs hp hb
  have hcount : s.pollCnt.toNat = min s.pollCnt.toNat 65535 := by have := s.pollCnt.isLt; omega
  refine ⟨pollCntNext s.pollCnt, pollCntNext_toNat hcount, fun hlim => ?last, fun hlim => ?further⟩
  case last =>
    rw [exec_txnStep_of_wcd hs hp, stepWcd_of_busy hb, if_pos (pollLimitReached_iff.mpr hlim),
      State.enterError_eq, State.slotRead_eq, hb]
    rfl
  case further =>
    rw [exec_txnStep_of_wcd hs hp, stepWcd_of_busy hb, pollLimitReached_eq_false_iff.mpr hlim,
      if_neg Bool.false_ne_true, State.respond_eq, State.slotRead_eq, hb, ← hs]
    rfl

/-! ### The reads of one step in RSP (R169, R170) -/

/-- A step in RSP reads at least one byte. -/
theorem State.chunk_pos {s : State} (hc : spChunkInRange s.params = true) (hidx : s.spIdx.toNat < 9) :
    0 < s.chunk := by
  have := (spChunkInRange_iff _).mp hc
  simp only [State.chunk, Config.spLen]
  omega

/-- A step's reads: their events, the bytes stored from SP_IDX on, and SP_IDX advanced. -/
theorem rspAfterReads_eq {s : State} (hk : 0 < s.chunk) :
    s.rspAfterReads =
      { s.afterReads (8 * s.chunk) with
        sp := s.sp.writeAll s.spIdx.toNat (s.nextBytes s.chunk)
        spIdx := BitVec.ofNat 4 (s.spIdx.toNat + s.chunk) } := by
  rw [State.rspAfterReads, State.readBytesInto_eq s _ _ hk]
  rfl

theorem rspAfterReads_spRead (s : State) (i : Nat) :
    s.rspAfterReads.spRead i =
      if s.spIdx.toNat ≤ i ∧ i < s.spIdx.toNat + s.chunk then (s.nextBytes s.chunk)[i - s.spIdx.toNat]?
      else s.spRead i :=
  s.readBytesInto_spRead ..

/-- A run of bytes stored from `a` on has at its j-th address what a run stored from 0 on has there. -/
theorem State.readBytesInto_spRead_add (s : State) (a : Nat) {n j : Nat} (hj : j < n) :
    (s.readBytesInto a n).spRead (a + j) = (s.readBytesInto 0 n).spRead j := by
  rw [State.readBytesInto_spRead, State.readBytesInto_spRead, if_pos (by omega), if_pos (by omega),
    Nat.add_sub_cancel_left, Nat.sub_zero]

/-- Every byte of the step is stored at its address, and its bits are the eight samples of its turn. -/
theorem rspAfterReads_stores {s : State} {j : Nat} (hj : j < s.chunk) :
    ∃ v : Byte, s.rspAfterReads.spRead (s.spIdx.toNat + j) = some v ∧
      ∀ b, b < 8 → (s.nextBits (8 * s.chunk))[8 * j + b]? = some (v.getLsbD b) := by
  obtain ⟨v, hv, hbits⟩ := s.readBytesInto_stores hj
  exact ⟨v, (s.readBytesInto_spRead_add _ hj).trans hv, hbits⟩

theorem stepRsp_of_below {s : State} (h : s.rspAfterReads.spIdx ≠ 9) :
    s.stepRsp = .next (s.rspAfterReads.respond {}) := by
  simp only [State.stepRsp, if_neg h]

theorem stepRsp_of_nine {s : State} {b0 b1 : Byte} (h : s.rspAfterReads.spIdx = 9)
    (h0 : s.rspAfterReads.spRead 0 = some b0) (h1 : s.rspAfterReads.spRead 1 = some b1) :
    s.stepRsp = .next (s.completed (tempField b0 b1)) := by
  simp only [State.stepRsp, if_pos h, h0, h1]
  rfl

/-- SP_IDX reaches 9 where the bytes read make nine. -/
theorem rspAfterReads_spIdx_eq_nine_iff {s : State} (hidx : s.spIdx.toNat < 9) :
    s.rspAfterReads.spIdx = 9 ↔ s.spIdx.toNat + s.chunk = 9 := by
  rw [← BitVec.toNat_inj, (rspAfterReads_spIdx hidx).1]
  rfl

/-- In a state of the invariant a step in RSP goes on below the ninth byte, and at it completes with what SP[0] and
SP[1] read as. -/
theorem exec_txnStep_rsp_cases {s : State} (h : Invariant s) (hs : s.txnState = .rsp) :
    (s.spIdx.toNat + s.chunk < 9 ∧ exec .txnStep s = .next (s.rspAfterReads.respond {})) ∨
    (s.spIdx.toNat + s.chunk = 9 ∧ ∃ b0 b1, s.rspAfterReads.spRead 0 = some b0 ∧
      s.rspAfterReads.spRead 1 = some b1 ∧ exec .txnStep s = .next (s.completed (tempField b0 b1))) := by
  obtain ⟨-, hlt, hw⟩ := h.standsAt hs
  obtain ⟨hidx, hle⟩ := rspAfterReads_spIdx hlt
  have hnine := rspAfterReads_spIdx_eq_nine_iff hlt
  rw [exec_txnStep_of_rsp hs h.chunkRange]
  rcases Nat.lt_or_eq_of_le (hidx ▸ hle : s.spIdx.toNat + s.chunk ≤ 9) with hbelow | hat
  · exact .inl ⟨hbelow, stepRsp_of_below fun he => hbelow.ne (hnine.mp he)⟩
  · have hread (i : Nat) (hi : i < 9) : ∃ b, s.rspAfterReads.spRead i = some b :=
      Option.isSome_iff_exists.mp (rspAfterReads_written hw i (hat ▸ hi))
    obtain ⟨b0, h0⟩ := hread 0 (by omega)
    obtain ⟨b1, h1⟩ := hread 1 (by omega)
    exact .inr ⟨hat, b0, b1, h0, h1, stepRsp_of_nine (hnine.mpr hat) h0 h1⟩

/-- Settles O39: the step's reads, and then the response below the ninth byte or the completion at it. -/
theorem txnStepReadsTheScratchpad : Obligations.TxnStepReadsTheScratchpad := by
  intro s h hs
  have hlt := h.idxRsp hs
  have hpos := State.chunk_pos h.chunkRange hlt
  have hidx := (rspAfterReads_spIdx hlt).1
  have hout (a : Nat) (ha : a < s.spIdx.toNat ∨ s.spIdx.toNat + s.chunk ≤ a) :
      s.rspAfterReads.spRead a = s.spRead a := by
    rw [rspAfterReads_spRead, if_neg (by omega)]
  rcases exec_txnStep_rsp_cases h hs with ⟨hbelow, hexec⟩ | ⟨hat, b0, b1, h0, h1, hexec⟩
  · refine ⟨_, s.chunk, hexec, rfl, hpos, fun j hj => rspAfterReads_stores hj, hout, hidx, fun _ => ?further,
      fun hat => absurd hat hbelow.ne⟩
    case further =>
      rw [State.respond_eq, rspAfterReads_eq hpos, ← hs]
      rfl
  · refine ⟨_, s.chunk, hexec, rfl, hpos, fun j hj => rspAfterReads_stores hj, hout, hidx,
      fun hbelow => absurd hat hbelow.ne, fun _ => ⟨b0, b1, h0, h1, ?completed⟩⟩
    case completed =>
      rw [State.completed, State.respond_eq, rspAfterReads_eq hpos, hat]
      rfl

/-! ### The slots of one TXN.STEP (R180) -/

theorem stepApc_trace (s : State) :
    s.stepApc.trace = s.trace ++ if s.presenceAnswer then convertPhase else [.reset false] := by
  cases hp : s.presenceAnswer with
  | true => rw [stepApc_of_presence hp]; rfl
  | false => rw [stepApc_of_absence hp, State.enterError_trace, State.busReset_trace, hp]; rfl

theorem stepApr_trace (s : State) :
    s.stepApr.trace = s.trace ++ if s.presenceAnswer then readPhase else [.reset false] := by
  cases hp : s.presenceAnswer with
  | true => rw [stepApr_of_presence hp]; rfl
  | false => rw [stepApr_of_absence hp, State.enterError_trace, State.busReset_trace, hp]; rfl

theorem stepWcd_trace (s : State) : s.stepWcd.trace = s.trace ++ [.r s.bitAnswer] := by
  rw [← s.slotRead_trace]
  cases hb : s.bitAnswer with
  | true => rw [stepWcd_of_released hb]; rfl
  | false => rw [stepWcd_of_busy hb]; split <;> rfl

theorem rspAfterReads_trace (s : State) :
    s.rspAfterReads.trace = s.trace ++ readSlots (s.nextBits (8 * s.chunk)) :=
  s.readBytesInto_trace ..

/-- Settles O45, by the arm that runs. -/
theorem slotsPerTxnStep : Obligations.SlotsPerTxnStep := by
  intro s t h
  cases exec_txnStep_arm h with
  | quiet hs =>
    refine ⟨[], (List.append_nil _).symm, ?_⟩
    cases hq : s.txnState with
    | idle | done | err => rfl
    | apc | wcd | apr | rsp => rw [hq] at hs; cases hs
  | apc hs =>
    refine ⟨_, stepApc_trace s, ?_⟩
    rw [hs]
    exact apply_ite List.length _ convertPhase _
  | wcd hs =>
    refine ⟨_, stepWcd_trace s, ?_⟩
    rw [hs]
    rfl
  | apr hs =>
    refine ⟨_, stepApr_trace s, ?_⟩
    rw [hs]
    exact apply_ite List.length _ readPhase _
  | rsp hs hrsp =>
    have htrace : t.trace = s.rspAfterReads.trace := by
      rcases stepRsp_cases hrsp with rfl | ⟨temp, rfl⟩ <;> rfl
    refine ⟨_, htrace.trans (rspAfterReads_trace s), ?_⟩
    rw [hs, readSlots_length, State.nextBits_length]
    rfl

end Sys2Proof.Machine

/-! PROOFS. Runs of the sequencer (R177): what a number of TXN.STEP in a row reaches, phase by phase, on a machine
whose sensor's next answers are known. -/

namespace Sys2Proof.Machine

/-! ### Repeated TXN.STEP -/

/-- `n` TXN.STEP commands from `s` answer a next state, and `P` holds of it. -/
def Reaches (n : Nat) (s : State) (P : State → Prop) : Prop := ∃ t, runTxn n s = .next t ∧ P t

theorem Reaches.refl {s : State} {P : State → Prop} (h : P s) : Reaches 0 s P := ⟨s, rfl, h⟩

theorem runTxn_one {s u : State} (h : exec .txnStep s = .next u) : runTxn 1 s = .next u := by
  rw [runTxn, h]
  rfl

theorem Reaches.step {s u : State} {P : State → Prop} (hs : exec .txnStep s = .next u) (h : P u) :
    Reaches 1 s P := ⟨u, runTxn_one hs, h⟩

theorem runTxn_add {m : Nat} {s u : State} (h : runTxn m s = .next u) (n : Nat) :
    runTxn (m + n) s = runTxn n u := by
  induction m generalizing s with
  | zero => cases h; rw [Nat.zero_add]
  | succ m ih =>
    rw [Nat.succ_add, runTxn]
    rw [runTxn] at h
    cases he : exec .txnStep s with
    | next v => rw [he] at h; exact ih h
    | fault r => rw [he] at h; cases h
    | refused r => rw [he] at h; cases h

/-- Runs compose. -/
theorem Reaches.trans {m n : Nat} {s : State} {P Q : State → Prop} (h : Reaches m s P)
    (hPQ : ∀ u, P u → Reaches n u Q) : Reaches (m + n) s Q := by
  obtain ⟨u, hu, hP⟩ := h
  obtain ⟨t, ht, hQ⟩ := hPQ u hP
  exact ⟨t, (runTxn_add hu n).trans ht, hQ⟩

/-! ### Where a run stands -/

/-- A machine of these parameters, in this TXN_STATE, with this trace and these of the sensor's answers still to
come. -/
structure RunAt (p : Config.Params) (q : TxnState) (tr : Trace) (ps bs : List Bool) (s : State) : Prop where
  params : s.params = p
  txn : s.txnState = q
  trace : s.trace = tr
  presenceIn : s.presenceIn = ps
  bitIn : s.bitIn = bs

/-- A run in WCD that has counted `m` busy polls. -/
structure Polling (p : Config.Params) (m : Nat) (tr : Trace) (ps bs : List Bool) (s : State) : Prop
    extends RunAt p .wcd tr ps bs s where
  count : s.pollCnt.toNat = min m 65535

/-- A run in RSP that has read the first `i` of these bytes, and has the others before it; `tr` is the trace at the
start of the phase, `rest` the answers after the bytes. -/
structure Reading (p : Config.Params) (bytes : List Byte) (i : Nat) (tr : Trace) (ps rest : List Bool)
    (s : State) : Prop
    extends RunAt p .rsp (tr ++ readSlots (bitsOfBytes (bytes.take i))) ps
      (bitsOfBytes (bytes.drop i) ++ rest) s where
  idx : s.spIdx.toNat = i
  stored : ∀ j, j < i → s.spRead j = bytes[j]?

section

variable {p : Config.Params} {q : TxnState} {tr : Trace} {ps bs rest : List Bool} {s : State} {m : Nat}

theorem RunAt.presenceAnswer {b : Bool} (h : RunAt p q tr (b :: ps) bs s) : s.presenceAnswer = b := by
  rw [State.presenceAnswer, h.presenceIn]

theorem RunAt.bitAnswer {b : Bool} (h : RunAt p q tr ps (b :: bs) s) : s.bitAnswer = b := by
  rw [State.bitAnswer, h.bitIn]

/-- A read slot takes the next answer to TRACE (R102). -/
theorem RunAt.slotRead {b : Bool} (h : RunAt p q tr ps (b :: bs) s) :
    RunAt p q (tr ++ [.r b]) ps bs s.slotRead.2 := by
  rw [State.slotRead_eq, h.bitAnswer]
  exact ⟨h.params, h.txn, congrArg (· ++ _) h.trace, h.presenceIn, congrArg List.tail h.bitIn⟩

/-! ### From APC to RSP (R164 to R167) -/

theorem RunAt.convert (h : RunAt p .apc tr (true :: ps) bs s) :
    Reaches 1 s (Polling p 0 (tr ++ convertPhase) ps bs) := by
  refine .step (exec_txnStep_of_apc h.txn) ?_
  rw [stepApc_of_presence h.presenceAnswer]
  exact ⟨⟨h.params, rfl, congrArg (· ++ _) h.trace, congrArg List.tail h.presenceIn, h.bitIn⟩, rfl⟩

theorem Polling.exec_txnStep (hp : pollLimitInRange p = true) (h : Polling p m tr ps bs s) :
    exec .txnStep s = .next s.stepWcd := exec_txnStep_of_wcd h.txn (h.params ▸ hp)

theorem Polling.pollLimitReached_iff (h : Polling p m tr ps bs s) :
    pollLimitReached s.params (pollCntNext s.pollCnt) = true ↔
      ∃ l, p.pollLimit = some l ∧ l ≤ min (m + 1) 65535 := by
  rw [Machine.pollLimitReached_iff, pollCntNext_toNat h.count, h.params]

/-- A busy poll short of the limit is counted (R166). -/
theorem Polling.busy (hp : pollLimitInRange p = true) (hlim : ∀ l, p.pollLimit = some l → m + 1 < l)
    (h : Polling p m tr ps (false :: bs) s) : Reaches 1 s (Polling p (m + 1) (tr ++ [.r false]) ps bs) := by
  have hbelow : ¬ pollLimitReached s.params (pollCntNext s.pollCnt) = true := by
    rw [h.pollLimitReached_iff]
    rintro ⟨l, hl, hle⟩
    have := hlim l hl
    omega
  refine .step (h.exec_txnStep hp) ?_
  rw [stepWcd_of_busy h.bitAnswer, if_neg hbelow]
  have hread := h.toRunAt.slotRead
  exact ⟨⟨hread.params, hread.txn, hread.trace, hread.presenceIn, hread.bitIn⟩, pollCntNext_toNat h.count⟩

/-- A run of busy polls short of the limit stays in WCD. -/
theorem Polling.busyRun (hp : pollLimitInRange p = true) {n : Nat}
    (hlim : ∀ l, p.pollLimit = some l → m + n < l) (h : Polling p m tr ps (List.replicate n false ++ bs) s) :
    Reaches n s (Polling p (m + n) (tr ++ readSlots (List.replicate n false)) ps bs) := by
  induction n generalizing m tr s with
  | zero => exact .refl (by simpa [readSlots] using h)
  | succ n ih =>
    have hfirst := h.busy hp fun l hl => by have := hlim l hl; omega
    have hrest := hfirst.trans fun u hu => ih (fun l hl => by have := hlim l hl; omega) hu
    rw [show tr ++ readSlots (List.replicate (n + 1) false) =
      tr ++ [.r false] ++ readSlots (List.replicate n false) by simp [readSlots, List.replicate_succ]]
    rwa [Nat.add_comm 1 n, Nat.add_assoc, Nat.add_comm 1 n] at hrest

/-- From APC, with presence and then busy polls short of the limit. -/
theorem RunAt.convertThenPoll (hp : pollLimitInRange p = true) (hlim : ∀ l, p.pollLimit = some l → m < l)
    (h : RunAt p .apc tr (true :: ps) (List.replicate m false ++ bs) s) :
    Reaches (1 + m) s (Polling p m (tr ++ convertPhase ++ readSlots (List.replicate m false)) ps bs) := by
  have hlim0 : ∀ l, p.pollLimit = some l → 0 + m < l := by simpa using hlim
  simpa using h.convert.trans fun u hu => hu.busyRun hp hlim0

/-- The busy poll that reaches the limit ends the transaction (R166). -/
theorem Polling.last (hp : pollLimitInRange p = true) {l : Nat} (hl : p.pollLimit = some l) (hm : m + 1 = l)
    (h : Polling p m tr ps (false :: bs) s) :
    Reaches 1 s fun t => t.txnState = .err ∧ t.errVariant = .c ∧ t.tempHi = 0xFF ∧ t.tempLo = 0xFD := by
  have hrange := (pollLimitInRange_iff p).mp hp l hl
  refine .step (h.exec_txnStep hp) ?_
  rw [stepWcd_of_busy h.bitAnswer, if_pos (h.pollLimitReached_iff.mpr ⟨l, hl, by omega⟩)]
  exact ⟨rfl, rfl, rfl, rfl⟩

/-- The poll that sees the release (R165). -/
theorem Polling.released (hp : pollLimitInRange p = true) (h : Polling p m tr ps (true :: bs) s) :
    Reaches 1 s (RunAt p .apr (tr ++ [.r true]) ps bs) := by
  refine .step (h.exec_txnStep hp) ?_
  rw [stepWcd_of_released h.bitAnswer]
  have hread := h.toRunAt.slotRead
  exact ⟨hread.params, rfl, hread.trace, hread.presenceIn, hread.bitIn⟩

theorem RunAt.read {bytes : List Byte} (h : RunAt p .apr tr (true :: ps) (bitsOfBytes bytes ++ rest) s) :
    Reaches 1 s (Reading p bytes 0 (tr ++ readPhase) ps rest) := by
  refine .step (exec_txnStep_of_apr h.txn) ?_
  rw [stepApr_of_presence h.presenceAnswer]
  exact ⟨⟨h.params, rfl, (congrArg (· ++ _) h.trace).trans (List.append_nil _).symm,
    congrArg List.tail h.presenceIn, h.bitIn⟩, rfl, nofun⟩

end

/-- Settles O55: the busy polls are counted up to the limit, and the poll that reaches it ends in variant C. -/
theorem stuckLowLineEndsInVariantC : Obligations.StuckLowLineEndsInVariantC := by
  constructor
  · intro s l ps rest hinv hs hl hpres hbits
    have hp := hinv.pollRange
    obtain ⟨hl1, hl2⟩ := (pollLimitInRange_iff _).mp hp l hl
    have hpoll (k : Nat) (hk : k < l) : Reaches (1 + k) s (Polling s.params k
        (s.trace ++ convertPhase ++ readSlots (List.replicate k false)) ps
        (List.replicate (l - k) false ++ rest)) := by
      refine RunAt.convertThenPoll hp (fun l' hl' => by cases hl.symm.trans hl'; exact hk)
        ⟨rfl, hs, rfl, hpres, ?_⟩
      rw [hbits, ← List.append_assoc, List.replicate_append_replicate, Nat.add_sub_cancel' hk.le]
    constructor
    · intro k hk
      obtain ⟨u, hu, hat⟩ := hpoll k hk
      exact ⟨u, hu, hat.txn, by rw [hat.count]; omega⟩
    · have hend := (hpoll (l - 1) (by omega)).trans fun u hu => by
        rw [Nat.sub_sub_self hl1] at hu
        exact hu.last hp hl (by omega)
      rwa [show 1 + (l - 1) + 1 = 1 + l by omega] at hend
  · intro s m ps rest hs hl hpres hbits
    have hp : pollLimitInRange s.params = true := by simp [pollLimitInRange, hl]
    obtain ⟨t, ht, hat⟩ := RunAt.convertThenPoll hp (fun l' hl' => nomatch hl.symm.trans hl')
      ⟨rfl, hs, rfl, hpres, hbits⟩
    exact ⟨t, ht, hat.txn, hat.count, hat.trace⟩

/-! ### The bytes that the answers at hand make (R52, R121) -/

/-- The byte of its own bits. -/
theorem byteOfBits_bitsOf (v : Byte) : byteOfBits (bitsOf v) = v := by
  refine BitVec.eq_of_getElem_eq fun k hk => ?_
  rw [getElem_byteOfBits _ hk, getElem?_bitsOf v hk, Option.getD_some, BitVec.getLsbD_eq_getElem hk]

theorem bytesOfBits_bitsOfBytes (l : List Byte) : bytesOfBits (bitsOfBytes l) l.length = l := by
  induction l with
  | nil => rfl
  | cons v l ih =>
    have hlen : (bitsOf v).length = 8 := rfl
    rw [show bitsOfBytes (v :: l) = bitsOf v ++ bitsOfBytes l from List.flatMap_cons, List.length_cons,
      bytesOfBits, List.take_left' hlen, List.drop_left' hlen, byteOfBits_bitsOf, ih]

theorem bitsOfBytes_length (l : List Byte) : (bitsOfBytes l).length = 8 * l.length := by
  induction l with
  | nil => rfl
  | cons v l ih =>
    rw [show bitsOfBytes (v :: l) = bitsOf v ++ bitsOfBytes l from List.flatMap_cons, List.length_append, ih,
      List.length_cons, Nat.mul_succ, Nat.add_comm]
    rfl

section

variable {s : State} {l : List Byte} {rest : List Bool} (h : s.bitIn = bitsOfBytes l ++ rest)
include h

/-- The next samples of a machine whose next answers are the bits of these bytes. -/
theorem State.nextBits_of_bytes {n : Nat} (hn : n = l.length) : s.nextBits (8 * n) = bitsOfBytes l :=
  s.nextBits_of_answers _ rest (by rw [bitsOfBytes_length, hn]) h

theorem State.nextBytes_of_bytes {n : Nat} (hn : n = l.length) : s.nextBytes n = l := by
  rw [State.nextBytes, State.nextBits_of_bytes h hn, hn, bytesOfBits_bitsOfBytes]

end

/-! ### From RSP to DONE (R169, R170) -/

section

variable {p : Config.Params} {bytes : List Byte} {i : Nat} {tr : Trace} {ps rest : List Bool} {s : State}

/-- The bits of the bytes from `i` on are those of the next `k` and of the others. -/
theorem bitsOfBytes_drop (bytes : List Byte) (i k : Nat) :
    bitsOfBytes (bytes.drop i) = bitsOfBytes ((bytes.drop i).take k) ++ bitsOfBytes (bytes.drop (i + k)) := by
  rw [← bitsOfBytes_append, ← List.drop_drop, List.take_append_drop]

/-- A step's reads take the next bytes from the answers into SP (R126). -/
theorem Reading.afterReads (hbytes : bytes.length = 9) (hk : 0 < s.chunk) (hi : i < 9)
    (h : Reading p bytes i tr ps rest s) : Reading p bytes (i + s.chunk) tr ps rest s.rspAfterReads := by
  have hle : i + s.chunk ≤ 9 := by
    simp only [State.chunk, Config.spLen, h.idx]
    omega
  have hlen : s.chunk = ((bytes.drop i).take s.chunk).length := by
    rw [List.length_take, List.length_drop]
    omega
  have hin : s.bitIn = bitsOfBytes ((bytes.drop i).take s.chunk) ++
      (bitsOfBytes (bytes.drop (i + s.chunk)) ++ rest) := by
    rw [h.bitIn, bitsOfBytes_drop bytes i s.chunk, List.append_assoc]
  have hidx := (rspAfterReads_spIdx (h.idx ▸ hi)).1
  refine ⟨⟨(chunk_traffic s).params.trans h.params, (chunk_traffic s).txn.trans h.txn, ?trace, ?presenceIn,
    ?bitIn⟩, h.idx ▸ hidx, fun j hj => ?stored⟩
  case trace =>
    rw [rspAfterReads_trace, State.nextBits_of_bytes hin hlen, h.trace, List.append_assoc, ← readSlots_append,
      ← bitsOfBytes_append, ← List.take_add]
  case presenceIn => rw [rspAfterReads_eq hk]; exact h.presenceIn
  case bitIn =>
    rw [rspAfterReads_eq hk]
    exact (congrArg _ hin).trans (List.drop_left' (by rw [bitsOfBytes_length, ← hlen]))
  case stored =>
    rw [rspAfterReads_spRead, State.nextBytes_of_bytes hin hlen, h.idx]
    split
    · rw [List.getElem?_take_of_lt (by omega), List.getElem?_drop, Nat.add_sub_of_le (by omega)]
    · exact h.stored j (by omega)

variable (hc : spChunkInRange p = true) (hbytes : bytes.length = 9)
include hc hbytes

/-- A step that leaves bytes to read (R170). -/
theorem Reading.further (hi : i + p.spChunk < 9) (h : Reading p bytes i tr ps rest s) :
    Reaches 1 s (Reading p bytes (i + p.spChunk) tr ps rest) := by
  have hrange : spChunkInRange s.params = true := h.params ▸ hc
  have hlt : s.spIdx.toNat < 9 := by rw [h.idx]; omega
  have hchunk : s.chunk = p.spChunk := by
    simp only [State.chunk, Config.spLen, h.idx, h.params]
    omega
  have hread := h.afterReads hbytes (State.chunk_pos hrange hlt) (by omega)
  have hbelow : s.rspAfterReads.spIdx ≠ 9 := fun he => by
    rw [rspAfterReads_spIdx_eq_nine_iff hlt, h.idx, hchunk] at he
    omega
  refine .step ((exec_txnStep_of_rsp h.txn hrange).trans (stepRsp_of_below hbelow)) ?_
  rw [hchunk] at hread
  exact ⟨⟨hread.params, hread.txn, hread.trace, hread.presenceIn, hread.bitIn⟩, hread.idx, hread.stored⟩

/-- Steps that leave bytes to read. -/
theorem Reading.furtherRun {n : Nat} (hn : n * p.spChunk < 9) (h : Reading p bytes 0 tr ps rest s) :
    Reaches n s (Reading p bytes (n * p.spChunk) tr ps rest) := by
  induction n with
  | zero => exact .refl (by rwa [Nat.zero_mul])
  | succ n ih =>
    rw [Nat.succ_mul] at hn ⊢
    exact (ih (by omega)).trans fun u hu => hu.further hc hbytes hn

/-- The step that reads the ninth byte: the result is the temperature field of the first two (R170). -/
theorem Reading.complete (hi : i < 9) (hnine : 9 ≤ i + p.spChunk) (h : Reading p bytes i tr ps rest s) :
    ∃ b0 b1, bytes[0]? = some b0 ∧ bytes[1]? = some b1 ∧
      exec .txnStep s = .next (s.completed (tempField b0 b1)) ∧
      Reading p bytes 9 tr ps rest s.rspAfterReads := by
  have hrange : spChunkInRange s.params = true := h.params ▸ hc
  have hlt : s.spIdx.toNat < 9 := h.idx ▸ hi
  have hchunk : i + s.chunk = 9 := by
    simp only [State.chunk, Config.spLen, h.idx, h.params]
    omega
  have hread := h.afterReads hbytes (State.chunk_pos hrange hlt) hi
  rw [hchunk] at hread
  have hbyte (j : Nat) (hj : j < 9) : ∃ b, bytes[j]? = some b := ⟨_, List.getElem?_eq_getElem (hbytes ▸ hj)⟩
  obtain ⟨b0, h0⟩ := hbyte 0 (by omega)
  obtain ⟨b1, h1⟩ := hbyte 1 (by omega)
  have hstep := stepRsp_of_nine ((rspAfterReads_spIdx_eq_nine_iff hlt).mpr (h.idx ▸ hchunk))
    ((hread.stored 0 (by omega)).trans h0) ((hread.stored 1 (by omega)).trans h1)
  exact ⟨b0, b1, h0, h1, (exec_txnStep_of_rsp h.txn hrange).trans hstep, hread⟩

end

/-- ceil(9 / SP_CHUNK) is the first number of steps that reads nine bytes (R169, R177). -/
theorem rspSteps_eq_succ {p : Config.Params} (hc : spChunkInRange p = true) :
    ∃ n, rspSteps p = n + 1 ∧ n * p.spChunk < 9 ∧ 9 ≤ n * p.spChunk + p.spChunk := by
  obtain ⟨hpos, -⟩ := (spChunkInRange_iff p).mp hc
  have hle : rspSteps p * p.spChunk ≤ 9 + p.spChunk - 1 := Nat.div_mul_le_self ..
  have hlt : 9 + p.spChunk - 1 < rspSteps p * p.spChunk + p.spChunk := Nat.lt_div_mul_add hpos
  cases hn : rspSteps p with
  | zero => rw [hn] at hlt; omega
  | succ n =>
    rw [hn, Nat.succ_mul] at hle hlt
    exact ⟨n, rfl, by omega, by omega⟩

/-- Settles O53: the phases one after another up to the last step of RSP, which completes. -/
theorem successTakesTheCountedSteps : Obligations.SuccessTakesTheCountedSteps := by
  intro s m bytes ps rest hinv hs hbytes hlim hpres hbits
  have hp := hinv.pollRange
  have hc := hinv.chunkRange
  obtain ⟨n, hsteps, hbelow, hnine⟩ := rspSteps_eq_succ hc
  have hstart : RunAt s.params .apc s.trace (true :: true :: ps)
      (List.replicate m false ++ (true :: (bitsOfBytes bytes ++ rest))) s :=
    ⟨rfl, hs, rfl, hpres, by simpa using hbits⟩
  have hlast : Reaches (1 + m + 1 + 1 + n) s (Reading s.params bytes (n * s.params.spChunk)
      (s.trace ++ convertPhase ++ readSlots (List.replicate m false) ++ [.r true] ++ readPhase) ps rest) :=
    (((hstart.convertThenPoll hp hlim).trans fun _ h => h.released hp).trans fun _ h => h.read).trans
      fun _ h => h.furtherRun hc hbytes hbelow
  obtain ⟨u, hu, hat⟩ := hlast
  obtain ⟨b0, b1, h0, h1, hexec, hread⟩ := hat.complete hc hbytes hbelow hnine
  refine ⟨⟨u, ?before, congrArg TxnState.inFlight hat.txn⟩, u.completed (tempField b0 b1), b0, b1, ?after, rfl,
    h0, h1, rfl, hread.stored, ?trace, ?bitIn, hread.presenceIn⟩
  case before => rwa [hsteps, show 1 + (m + 1) + 1 + (n + 1) - 1 = 1 + m + 1 + 1 + n by omega]
  case after =>
    rw [hsteps, show 1 + (m + 1) + 1 + (n + 1) = 1 + m + 1 + 1 + n + 1 by omega, runTxn_add hu,
      runTxn_one hexec]
  case trace =>
    refine hread.trace.trans ?_
    rw [List.take_of_length_le hbytes.le, readSlots_append]
    simp [readSlots]
  case bitIn =>
    refine hread.bitIn.trans ?_
    rw [List.drop_of_length_le hbytes.le]
    rfl

end Sys2Proof.Machine

/-! PROOFS. The exceptions of 60_exceptions.md: which status a command word is answered with and what a rejection leaves
(R200 to R202), where the machine stops and where it refuses (R204, R205), and what the device's contract gives a
transaction (R215, R217). -/

namespace Sys2Proof.Machine

/-! ### The answer to a command word (R200 to R202) -/

/-- R202's checks in their order, on the decoder's answer: legality, then the gating by a transaction in flight. -/
def firstFailedCheck (d : Except DecodeError Instr) (s : State) : Status :=
  match d with
  | .error _ => .illegal
  | .ok i => if i.gated = true ∧ s.txnState.inFlight = true then .busy else .ok

/-- A command delivered at `s` is answered with this status, and leaves the machine at the state given last: rejected,
with nothing but the response, or performed, with one response after the operation's writes. -/
inductive Answered (s : State) : Status → State → Prop where
  | rejected {st : Status} : st ≠ .ok → Answered s st (s.reject st)
  | performed {u : State} (f : RspFields) : f.status = .ok → u.responses = s.responses →
      Answered s .ok (u.respond f)

theorem Answered.response {s t : State} {st : Status} (h : Answered s st t) :
    ∃ r, t.responses = s.responses ++ [r] ∧ rspStatus r = st.code := by
  cases h with
  | rejected => exact ⟨_, rfl, rspStatus_rspWord ..⟩
  | performed f hf hu => exact ⟨_, congrArg (· ++ _) hu, by rw [rspStatus_rspWord, hf]⟩

theorem answered_enterError {s u : State} (v : ErrVariant) (hu : u.responses = s.responses) :
    Answered s .ok (u.enterError v) :=
  .performed (u := ((u.setErr v).setTemp (sentinel v)).setTxn .err) _ rfl hu

theorem txnStep_answered {s t : State} (h : exec .txnStep s = .next t) : Answered s .ok t := by
  cases exec_txnStep_arm h with
  | quiet => exact .performed _ rfl rfl
  | apc =>
    cases hp : s.presenceAnswer with
    | true => rw [stepApc_of_presence hp]; exact .performed _ rfl rfl
    | false => rw [stepApc_of_absence hp]; exact answered_enterError .a s.busReset_responses
  | wcd =>
    cases hb : s.bitAnswer with
    | true => rw [stepWcd_of_released hb]; exact .performed _ rfl s.slotRead_responses
    | false =>
      rw [stepWcd_of_busy hb]
      split
      · exact answered_enterError .c s.slotRead_responses
      · exact .performed _ rfl s.slotRead_responses
  | apr =>
    cases hp : s.presenceAnswer with
    | true => rw [stepApr_of_presence hp]; exact .performed _ rfl rfl
    | false => rw [stepApr_of_absence hp]; exact answered_enterError .b s.busReset_responses
  | rsp _ hrsp =>
    rcases stepRsp_cases hrsp with rfl | ⟨temp, rfl⟩
    · exact .performed _ rfl (s.readBytesInto_responses _ _)
    · exact .performed _ rfl (s.readBytesInto_responses _ _)

/-- An accepted command that answers a next state is performed, and answered OK. -/
theorem accepted_answered {i : Instr} {s t : State} (hacc : Accepted s i) (h : exec i s = .next t) :
    Answered s .ok t := by
  obtain ⟨hwf, hgate⟩ := hacc
  have hfree (hg : i.gated = true) : s.txnState.inFlight = false :=
    Bool.eq_false_of_not_eq_true fun hs => hgate ⟨hg, hs⟩
  cases i with
  | busReset => rw [exec_busReset_of_free (hfree rfl)] at h; cases h; exact .performed _ rfl s.busReset_responses
  | busWbit b => rw [exec_busWbit_of_free (hfree rfl)] at h; cases h; exact .performed _ rfl (s.slotWrite_responses b)
  | busRbit => rw [exec_busRbit_of_free (hfree rfl)] at h; cases h; exact .performed _ rfl s.slotRead_responses
  | busWbyte d =>
    rw [exec_busWbyte_of_free (hfree rfl)] at h; cases h; exact .performed _ rfl (s.writeByte_responses d)
  | busRbyte => rw [exec_busRbyte_of_free (hfree rfl)] at h; cases h; exact .performed _ rfl s.readByte_responses
  | busRbytes n =>
    rw [exec_busRbytes_of_free (hfree rfl) hwf] at h; cases h; exact .performed _ rfl (s.readBytesInto_responses ..)
  | spRd k =>
    cases hv : s.spRead k.toNat with
    | none => rw [exec_spRd_of_unwritten hwf hv] at h; cases h
    | some v => rw [exec_spRd_of_written hwf hv] at h; cases h; exact .performed _ rfl rfl
  | crcClr => cases h; exact .performed (u := s.setCrc 0) _ rfl rfl
  | crcUpd d => cases h; exact .performed (u := s.setCrc (crc8Step s.crcAcc d)) _ rfl rfl
  | crcBuf n =>
    cases hl : s.spPrefix n.toNat with
    | none => rw [exec_crcBuf_of_unwritten hwf hl] at h; cases h
    | some l => rw [exec_crcBuf_of_written hwf hl] at h; cases h; exact .performed _ rfl rfl
  | txnStart => rw [exec_txnStart_of_free (hfree rfl)] at h; cases h; exact .performed _ rfl rfl
  | txnStep => exact txnStep_answered h
  | txnAbort => cases h; exact .performed _ rfl rfl
  | txnStatus => rw [exec_txnStatus] at h; cases h; exact .performed _ (by split <;> rfl) rfl

/-- An instruction of the command set is answered BUSY where it is gated in flight, and else as accepted. -/
theorem exec_answered {i : Instr} {s t : State} (hwf : i.wellFormed = true) (h : exec i s = .next t) :
    Answered s (firstFailedCheck (.ok i) s) t := by
  by_cases hbusy : i.gated = true ∧ s.txnState.inFlight = true
  · rw [firstFailedCheck, if_pos hbusy]
    obtain ⟨hg, hs⟩ := hbusy
    cases h.symm.trans (exec_gated_of_inFlight hwf hg hs)
    exact .rejected nofun
  · rw [firstFailedCheck, if_neg hbusy]
    exact accepted_answered ⟨hwf, hbusy⟩ h

/-- Every command word that answers a next state is answered with its first failed check. -/
theorem step_answered {s t : State} {w : CmdWord} {rest : List Input} (hin : s.inputs = ⟨false, some w⟩ :: rest)
    (h : step s = .next t) : Answered { s with inputs := rest } (firstFailedCheck (decode w) s) t := by
  cases hd : decode w with
  | error e =>
    rw [step_of_word hin, hd] at h
    cases h
    exact .rejected nofun
  | ok i =>
    obtain ⟨hwf, -⟩ := onlyEncodedWordsDecode w i hd
    exact exec_answered hwf ((step_of_decoded hin hd).symm.trans h)

/-- Settles O9: the response carries the code of the first failed check. -/
theorem statusIsTheFirstFailedCheck : Obligations.StatusIsTheFirstFailedCheck := by
  intro s t w rest hin h
  obtain ⟨r, hr, hst⟩ := (step_answered hin h).response
  refine ⟨r, hr, hst.trans ?_⟩
  cases decode w with
  | error e => rfl
  | ok i => exact apply_ite Status.code _ _ _

/-- Settles O11: a rejection is its one response, and a command that is performed has STATUS = OK. -/
theorem rejectionChangesNothing : Obligations.RejectionChangesNothing := by
  intro s t w rest r hin h hr hst
  have hans := step_answered hin h
  generalize firstFailedCheck (decode w) s = st at hans
  cases hans with
  | rejected =>
    obtain rfl : rspWord { status := st } s.txnState s.errVariant = r := by simpa using hr
    exact ⟨rfl, rspData0_rspWord .., rspData1_rspWord .., rspDone_rspWord .., rspPresence_rspWord ..,
      rspTxnState_rspWord .., rspErrVariant_rspWord ..⟩
  | @performed u f hf hu =>
    obtain rfl : rspWord f u.txnState u.errVariant = r := by simpa [hu] using hr
    exact absurd (by rw [rspStatus_rspWord, hf]; rfl) hst

/-! ### Where the machine stops (R204, R205) -/

/-- Settles O51: the parameters are in range, and in RSP the invariant has SP[0] and SP[1] written. -/
theorem sequencerNeverFaults : Obligations.SequencerNeverFaults := by
  intro s h
  cases hs : s.txnState with
  | idle | done | err => exact ⟨_, exec_txnStep_of_not_inFlight (congrArg TxnState.inFlight hs)⟩
  | apc => exact ⟨_, exec_txnStep_of_apc hs⟩
  | wcd => exact ⟨_, exec_txnStep_of_wcd hs h.pollRange⟩
  | apr => exact ⟨_, exec_txnStep_of_apr hs⟩
  | rsp =>
    rcases exec_txnStep_rsp_cases h hs with ⟨-, hexec⟩ | ⟨-, _, _, -, -, hexec⟩
    · exact ⟨_, hexec⟩
    · exact ⟨_, hexec⟩

/-- The instruction reads a scratchpad byte that is not written (R30). -/
def ReadsUnwritten (s : State) (i : Instr) : Prop :=
  (∃ k, i = .spRd k ∧ s.spW k.toNat = false) ∨ ∃ n j, i = .crcBuf n ∧ j < n.toNat ∧ s.spW j = false

/-- Of the first n bytes one is unwritten where there is no list of them. -/
theorem State.exists_unwritten_of_spPrefix {s : State} {n : Nat} (h : s.spPrefix n = none) :
    ∃ j, j < n ∧ s.spW j = false := by
  have hsome : ¬ ∀ j, j < n → s.spW j = true := by rw [← State.spPrefix_isSome, h]; exact nofun
  simpa using hsome

/-- In a state of the invariant an instruction answers a next state, or faults on an unwritten byte. -/
theorem exec_next_or_readsUnwritten {s : State} (h : Invariant s) (i : Instr) :
    (∃ t, exec i s = .next t) ∨ exec i s = .fault .unwrittenScratchpadRead ∧ ReadsUnwritten s i := by
  cases hwf : i.wellFormed with
  | false => exact .inl ⟨_, illFormedTermsAnswerIllegal i s hwf⟩
  | true =>
    cases i with
    | spRd k =>
      cases hv : s.spRead k.toNat with
      | none => exact .inr ⟨exec_spRd_of_unwritten hwf hv, .inl ⟨k, rfl, by rw [State.spW, hv]; rfl⟩⟩
      | some v => exact .inl ⟨_, exec_spRd_of_written hwf hv⟩
    | crcBuf n =>
      cases hl : s.spPrefix n.toNat with
      | none =>
        obtain ⟨j, hj, hw⟩ := State.exists_unwritten_of_spPrefix hl
        exact .inr ⟨exec_crcBuf_of_unwritten hwf hl, .inr ⟨n, j, rfl, hj, hw⟩⟩
      | some l => exact .inl ⟨_, exec_crcBuf_of_written hwf hl⟩
    | txnStep => exact .inl (sequencerNeverFaults s h)
    | _ => exact .inl ⟨_, rfl⟩

/-- Settles O52: idle ports, a reset and an ILLEGAL word answer a next state, and an instruction does but for the
fault. -/
theorem stepStopsOnlyOnAnUnwrittenByte : Obligations.StepStopsOnlyOnAnUnwrittenByte := by
  intro s h
  rcases s.event_cases with ⟨he, -⟩ | ⟨he, -⟩ | ⟨w, rest, -, hin⟩
  · exact .inl ⟨_, step_of_quiet he⟩
  · exact .inl ⟨s.popInput.blockReset, by simp [step, he]⟩
  · cases hd : decode w with
    | error e => exact .inl ⟨State.reject .illegal { s with inputs := rest }, by rw [step_of_word hin, hd]⟩
    | ok i =>
      have hinv : Invariant { s with inputs := rest } := h.frame (keepsSequencer_of_others s ..)
      rw [step_of_decoded hin hd]
      rcases exec_next_or_readsUnwritten hinv i with hnext | ⟨hfault, ⟨k, rfl, hw⟩ | ⟨n, j, rfl, hj, hw⟩⟩
      · exact .inl hnext
      · exact .inr ⟨hfault, w, rest, hin, .inl ⟨k, hd, hw⟩⟩
      · exact .inr ⟨hfault, w, rest, hin, .inr ⟨n, j, hd, hj, hw⟩⟩

/-! ### The device's contract in one transaction (R215, R217) -/

/-- Runs of bytes of one length are told apart by their bits. -/
theorem bitsOfBytes_inj {l m : List Byte} (hlen : l.length = m.length) (h : bitsOfBytes l = bitsOfBytes m) :
    l = m := by
  rw [← bytesOfBits_bitsOfBytes l, h, hlen, bytesOfBits_bitsOfBytes]

/-- A last read phase of nine bytes that keeps the contract carries the device's bytes. -/
theorem ScratchpadKept.eq_bytes {before : Trace} {l bytes : List Byte} (hl : l.length = 9)
    (hbytes : bytes.length = 9)
    (h : ScratchpadKept bytes (before ++ readPhase ++ readSlots (bitsOfBytes l))) : l = bytes := by
  have hbits (m : List Byte) (hm : m.length = 9) : (bitsOfBytes m).length = 72 := by rw [bitsOfBytes_length, hm]
  have hkept := h before (bitsOfBytes l) rfl
  rw [List.take_of_length_le (hbits l hl).le, hbits l hl, List.take_of_length_le (hbits bytes hbytes).le] at hkept
  exact bitsOfBytes_inj (hl.trans hbytes.symm) hkept

/-- Settles O56: SP holds the bytes that the trace ends with, and these are the device's. -/
theorem completedResultIsTheDevices : Obligations.CompletedResultIsTheDevices := by
  intro s t bytes b0 b1 hinv hwire hs hexec hdone hbytes h0 h1 hkept
  have hlt := hinv.idxRsp hs
  rcases exec_txnStep_rsp_cases hinv hs with ⟨-, hstep⟩ | ⟨hat, c0, c1, hc0, hc1, hstep⟩
  · cases hexec.symm.trans hstep
    exact nomatch hdone.symm.trans ((chunk_traffic s).txn.trans hs)
  · cases hexec.symm.trans hstep
    obtain ⟨before, l, htrace, hlen, hsp⟩ := rspAfterReads_onTheWire hlt ((onTheWire_rsp_iff hs).mp hwire)
    have hl : l.length = 9 := hlen.trans ((rspAfterReads_spIdx hlt).1.trans hat)
    obtain rfl : l = bytes := ScratchpadKept.eq_bytes hl hbytes (htrace ▸ hkept)
    have hread (j : Nat) (hj : j < 9) : s.rspAfterReads.spRead j = l[j]? := hsp j (hl.symm ▸ hj)
    obtain rfl : c0 = b0 := Option.some.inj (hc0.symm.trans ((hread 0 (by omega)).trans h0))
    obtain rfl : c1 = b1 := Option.some.inj (hc1.symm.trans ((hread 1 (by omega)).trans h1))
    exact ⟨rfl, hread⟩

/-- Slots that show no device are not those of a phase, which opens with a presence. -/
theorem NoDevice.no_presence {p : Bool} {phase : Trace} (hphase : Slot.reset true ∈ phase)
    (h : NoDevice (if p then phase else [.reset false])) : p = false := by
  cases p with
  | false => rfl
  | true => exact absurd hphase h.1

/-- Settles O57: with presence the step opens its phase, so there was none, and the step enters its error. -/
theorem absentDeviceEndsTheTransaction : Obligations.AbsentDeviceEndsTheTransaction := by
  intro s t es hs hexec htrace hnone
  rcases hs with hs | hs
  · cases hexec.symm.trans (exec_txnStep_of_apc hs)
    obtain rfl := List.append_cancel_left (htrace.symm.trans (stepApc_trace s))
    have hp := hnone.no_presence (List.mem_cons_self ..)
    rw [stepApc_of_absence hp, hs, hp]
    exact ⟨rfl, rfl, rfl, rfl⟩
  · cases hexec.symm.trans (exec_txnStep_of_apr hs)
    obtain rfl := List.append_cancel_left (htrace.symm.trans (stepApr_trace s))
    have hp := hnone.no_presence (List.mem_cons_self ..)
    rw [stepApr_of_absence hp, hs, hp]
    exact ⟨rfl, rfl, rfl, rfl⟩

/-! ### A parameter outside its range (R8, R205) -/

theorem exec_txnStep_wcd_of_badLimit {s : State} (hs : s.txnState = .wcd) (hp : pollLimitInRange s.params = false) :
    exec .txnStep s = .refused .pollLimitOutOfRange := by
  simp [exec, execTxnStep, hs, hp]

theorem exec_txnStep_rsp_of_badChunk {s : State} (hs : s.txnState = .rsp) (hc : spChunkInRange s.params = false) :
    exec .txnStep s = .refused .spChunkOutOfRange := by
  simp [exec, execTxnStep, hs, hc]

/-- Settles O40: the state that uses the parameter checks its range first. -/
theorem txnStepRefusesABadConfiguration : Obligations.TxnStepRefusesABadConfiguration := by
  constructor
  · rintro s hs ⟨l, hl, hout⟩
    refine exec_txnStep_wcd_of_badLimit hs (Bool.eq_false_of_not_eq_true fun hp => ?_)
    have := (pollLimitInRange_iff _).mp hp l hl
    omega
  · intro s hs hout
    refine exec_txnStep_rsp_of_badChunk hs (Bool.eq_false_of_not_eq_true fun hc => ?_)
    have := (spChunkInRange_iff _).mp hc
    omega

end Sys2Proof.Machine

/-! PROOFS. The resets and the times of 70_reset_and_hazards.md: a block reset (R230), a transaction's end under a poll
limit whatever the device answers (R246), and the nominal bus time of each command (R243). -/

namespace Sys2Proof.Machine

/-! ### A block reset (R230) -/

/-- RST_N has priority over whatever stands on the command port (R210). -/
theorem step_of_reset {s : State} {c : Option CmdWord} {rest : List Input} (h : s.inputs = ⟨true, c⟩ :: rest) :
    step s = .next s.popInput.blockReset := by
  simp [step, State.event, h]

/-- No byte is written after a block reset (R40). -/
theorem blockReset_spW (s : State) (i : Nat) : s.blockReset.spW i = false := rfl

/-- Settles O16: the ports' input is taken, and the rest is the block reset field by field. -/
theorem blockResetRestoresResetValues : Obligations.BlockResetRestoresResetValues := by
  intro s c rest hin
  have htaken : s.popInput.inputs = rest := by rw [State.popInput_inputs, hin, List.tail_cons]
  exact ⟨s.popInput.blockReset, step_of_reset hin, rfl, rfl, rfl, rfl, rfl, rfl, rfl, rfl,
    blockReset_spW s.popInput, rfl, rfl, htaken, rfl, rfl, rfl⟩

/-! ### How far a transaction is from its end (R177, R246) -/

/-- How many steps of RSP read the bytes from SP[i] on: ceil((9 - i) / SP_CHUNK). -/
def readStepsFrom (p : Config.Params) (i : Nat) : Nat := (Config.spLen - i + p.spChunk - 1) / p.spChunk

/-- An upper bound on the TXN.STEP commands that a transaction with limit `l` still takes, by its state: at most
`l - POLL_CNT` polls, and each other phase in its own number. Outside a transaction there is none to take. -/
def stepsLeft (l : Nat) (s : State) : Nat :=
  match s.txnState with
  | .apc => 1 + l + 1 + rspSteps s.params
  | .wcd => l - s.pollCnt.toNat + 1 + rspSteps s.params
  | .apr => 1 + rspSteps s.params
  | .rsp => readStepsFrom s.params s.spIdx.toNat
  | .idle => 0
  | .done => 0
  | .err => 0

section

variable {l : Nat} {s : State}

theorem stepsLeft_of_apc (hs : s.txnState = .apc) : stepsLeft l s = 1 + l + 1 + rspSteps s.params := by
  rw [stepsLeft, hs]

theorem stepsLeft_of_wcd (hs : s.txnState = .wcd) :
    stepsLeft l s = l - s.pollCnt.toNat + 1 + rspSteps s.params := by
  rw [stepsLeft, hs]

theorem stepsLeft_of_apr (hs : s.txnState = .apr) : stepsLeft l s = 1 + rspSteps s.params := by
  rw [stepsLeft, hs]

theorem stepsLeft_of_rsp (hs : s.txnState = .rsp) : stepsLeft l s = readStepsFrom s.params s.spIdx.toNat := by
  rw [stepsLeft, hs]

end

theorem readStepsFrom_zero (p : Config.Params) : readStepsFrom p 0 = rspSteps p := rfl

theorem readStepsFrom_pos {p : Config.Params} (hc : spChunkInRange p = true) {i : Nat} (hi : i < 9) :
    0 < readStepsFrom p i := by
  obtain ⟨hpos, -⟩ := (spChunkInRange_iff p).mp hc
  exact Nat.div_pos (by simp only [Config.spLen]; omega) hpos

/-- A step that leaves bytes to read is one step fewer. -/
theorem readStepsFrom_add_chunk {p : Config.Params} {i : Nat} (hc : spChunkInRange p = true)
    (hi : i + p.spChunk < 9) : readStepsFrom p (i + p.spChunk) + 1 = readStepsFrom p i := by
  obtain ⟨hpos, -⟩ := (spChunkInRange_iff p).mp hc
  rw [readStepsFrom, readStepsFrom, ← Nat.add_div_right _ hpos]
  congr 1
  simp only [Config.spLen]
  omega

/-- Nine bytes take at most nine steps (R8, R169). -/
theorem rspSteps_le_nine {p : Config.Params} (hc : spChunkInRange p = true) : rspSteps p ≤ 9 := by
  obtain ⟨hpos, -⟩ := (spChunkInRange_iff p).mp hc
  obtain ⟨n, hn, hbelow, -⟩ := rspSteps_eq_succ hc
  have hle : n ≤ n * p.spChunk := Nat.le_mul_of_pos_right n hpos
  omega

/-- A transaction in flight is not over yet. -/
theorem stepsLeft_pos {l : Nat} {s : State} (h : Invariant s) (hs : s.txnState.inFlight = true) :
    0 < stepsLeft l s := by
  cases hq : s.txnState with
  | idle | done | err => rw [hq] at hs; cases hs
  | apc => rw [stepsLeft_of_apc hq]; omega
  | wcd => rw [stepsLeft_of_wcd hq]; omega
  | apr => rw [stepsLeft_of_apr hq]; omega
  | rsp => rw [stepsLeft_of_rsp hq]; exact readStepsFrom_pos h.chunkRange (h.idxRsp hq)

/-! ### Every TXN.STEP brings a transaction nearer to its end (R246) -/

/-- A busy poll that does not reach the limit is counted, and leaves polls to do (R166). -/
theorem pollCntNext_below_limit {p : Config.Params} {l : Nat} {n : BitVec 16} (hp : pollLimitInRange p = true)
    (hl : p.pollLimit = some l) (hlim : pollLimitReached p (pollCntNext n) = false) :
    (pollCntNext n).toNat = n.toNat + 1 ∧ n.toNat + 1 < l := by
  have hcount : n.toNat = min n.toNat 65535 := by have := n.isLt; omega
  have hnext := pollCntNext_toNat hcount
  have hrange := (pollLimitInRange_iff p).mp hp l hl
  have hbelow := pollLimitReached_eq_false_iff.mp hlim l hl
  omega

/-- A step of RSP that does not complete reads a whole chunk (R169, R170). -/
theorem chunk_of_not_nine {s : State} (hidx : s.spIdx.toNat < 9) (hne : s.rspAfterReads.spIdx ≠ 9) :
    s.rspAfterReads.spIdx.toNat = s.spIdx.toNat + s.params.spChunk ∧ s.spIdx.toNat + s.params.spChunk < 9 := by
  have hnine : s.spIdx.toNat + s.chunk ≠ 9 := fun he => hne ((rspAfterReads_spIdx_eq_nine_iff hidx).mpr he)
  rw [(rspAfterReads_spIdx hidx).1]
  simp only [State.chunk, Config.spLen] at hnine ⊢
  omega

/-- From a transaction in flight a move of the sequencer ends it, or leaves fewer steps to take, whatever the sensor
answered. -/
theorem SequencerMove.ends_or_nearer {l : Nat} {s t : State} (h : Invariant s) (hl : s.params.pollLimit = some l)
    (hs : s.txnState.inFlight = true) (hm : SequencerMove s t) :
    t.txnState.hasResult = true ∨ (t.txnState.inFlight = true ∧ stepsLeft l t < stepsLeft l s) := by
  obtain ⟨-, hparams, -⟩ := hm.frame
  cases hm with
  | quiet hfree => cases hs.symm.trans hfree
  | absentForConvert | lastPoll | absentForRead | complete => exact .inl rfl
  | convert hq =>
    refine .inr ⟨rfl, ?_⟩
    rw [stepsLeft_of_apc hq, stepsLeft_of_wcd rfl, hparams]
    omega
  | conversionDone hq =>
    have hbelow := pollLimitReached_eq_false_iff.mp (h.pollBelow hq) l hl
    refine .inr ⟨rfl, ?_⟩
    rw [stepsLeft_of_wcd hq, stepsLeft_of_apr rfl, hparams]
    omega
  | @busyPoll u hq hb hlim =>
    obtain ⟨hnext, hbelow⟩ := pollCntNext_below_limit h.pollRange hl hlim
    have hqt : ((u.setPollCnt (pollCntNext s.pollCnt)).respond {}).txnState = .wcd := hb.txn.trans hq
    refine .inr ⟨congrArg TxnState.inFlight hqt, ?_⟩
    rw [stepsLeft_of_wcd hq, stepsLeft_of_wcd hqt, hparams, State.respond_pollCnt, State.setPollCnt_pollCnt, hnext]
    omega
  | read hq =>
    refine .inr ⟨rfl, ?_⟩
    rw [stepsLeft_of_apr hq, stepsLeft_of_rsp rfl, hparams, ← readStepsFrom_zero, Nat.add_comm]
    exact Nat.lt_succ_self _
  | chunk hq hne =>
    obtain ⟨hidx, hbelow⟩ := chunk_of_not_nine (h.idxRsp hq) hne
    have hqt : (s.rspAfterReads.respond {}).txnState = .rsp := (chunk_traffic s).txn.trans hq
    refine .inr ⟨congrArg TxnState.inFlight hqt, ?_⟩
    rw [stepsLeft_of_rsp hq, stepsLeft_of_rsp hqt, hparams, State.respond_spIdx, hidx,
      ← readStepsFrom_add_chunk h.chunkRange hbelow]
    exact Nat.lt_succ_self _

/-- A run that starts with a step is one longer than the run from where the step leads. -/
theorem Reaches.after_step {n : Nat} {s u : State} {P : State → Prop} (hs : exec .txnStep s = .next u)
    (h : Reaches n u P) : Reaches (n + 1) s P := by
  obtain ⟨t, ht, hP⟩ := h
  exact ⟨t, by rwa [runTxn, hs], hP⟩

/-- A transaction that is over stays over under TXN.STEP (R174). -/
theorem reaches_result_of_result {s : State} (h : s.txnState.hasResult = true) (n : Nat) :
    Reaches n s fun t => t.txnState.hasResult = true := by
  induction n generalizing s with
  | zero => exact .refl h
  | succ n ih =>
    have hfree : s.txnState.inFlight = false := by
      rcases (TxnState.hasResult_iff _).mp h with hq | hq <;> exact congrArg TxnState.inFlight hq
    exact .after_step (exec_txnStep_of_not_inFlight hfree) (ih h)

/-- A transaction in flight is over after as many steps as `stepsLeft` has, and stays so. -/
theorem reaches_result_of_stepsLeft_le {l n : Nat} {s : State} (h : Invariant s)
    (hl : s.params.pollLimit = some l) (hs : s.txnState.inFlight = true) (hn : stepsLeft l s ≤ n) :
    Reaches n s fun t => t.txnState.hasResult = true := by
  induction n generalizing s with
  | zero => exact absurd (stepsLeft_pos h hs) (Nat.not_lt_of_le hn)
  | succ n ih =>
    obtain ⟨t, ht⟩ := sequencerNeverFaults s h
    have hm := txnStep_move ht
    refine .after_step ht ?_
    rcases hm.ends_or_nearer h hl hs with hres | ⟨hfl, hlt⟩
    · exact reaches_result_of_result hres n
    · obtain ⟨-, hparams, -⟩ := hm.frame
      exact ih (hm.invariant h) (hparams ▸ hl) hfl (by omega)

/-- Settles O54: in APC `stepsLeft` is the spec's number of steps. -/
theorem boundedPollingCompletes : Obligations.BoundedPollingCompletes := by
  intro s l h hs hl
  have hread := rspSteps_le_nine h.chunkRange
  exact ⟨by omega,
    reaches_result_of_stepsLeft_le h hl (congrArg TxnState.inFlight hs) (stepsLeft_of_apc hs).le⟩

/-! ### The bus time of a run of slots (R91, R243) -/

theorem slotUs_of_mem_writeSlots (d : Byte) : ∀ e ∈ writeSlots d, slotUs e = 70 :=
  List.forall_mem_map.mpr fun b _ => slotUs_w b

theorem slotUs_of_mem_readSlots (bits : List Bool) : ∀ e ∈ readSlots bits, slotUs e = 70 :=
  List.forall_mem_map.mpr fun b _ => slotUs_r b

/-- A run of write and read slots takes T_SLOT a slot. -/
theorem sum_slotUs_of_bitSlots {es : Trace} (h : ∀ e ∈ es, slotUs e = 70) :
    (es.map slotUs).sum = 70 * es.length := by
  rw [List.map_eq_replicate_iff.mpr h, List.sum_replicate_nat, Nat.mul_comm]

theorem busTimeUs_of_bitSlots {es : Trace} (h : ∀ e ∈ es, slotUs e = 70) :
    busTimeUs es = 70 * es.length + (es.length - 1) * Config.tRec := by
  rw [busTimeUs, sum_slotUs_of_bitSlots h]

@[simp] theorem busTimeUs_nil : busTimeUs [] = 0 := by simp [busTimeUs]

@[simp] theorem busTimeUs_singleton (e : Slot) : busTimeUs [e] = slotUs e := by simp [busTimeUs]

theorem busTimeUs_writeSlots (d : Byte) : busTimeUs (writeSlots d) = 560 + 7 * Config.tRec :=
  busTimeUs_of_bitSlots (slotUs_of_mem_writeSlots d)

/-- The slots of `n` bytes read. -/
theorem busTimeUs_nextBits (s : State) (n : Nat) :
    busTimeUs (readSlots (s.nextBits (8 * n))) = 560 * n + (8 * n - 1) * Config.tRec := by
  rw [busTimeUs_of_bitSlots (slotUs_of_mem_readSlots _), readSlots_length, State.nextBits_length, ← Nat.mul_assoc]

/-- The reset and the two command bytes that open a phase of the transaction (R164, R167): 960 and sixteen times 70,
with sixteen gaps. -/
theorem busTimeUs_resetThenTwoBytes (d e : Byte) :
    busTimeUs (.reset true :: (writeSlots d ++ writeSlots e)) = 2080 + 16 * Config.tRec := by
  have hbytes : ((writeSlots d ++ writeSlots e).map slotUs).sum = 1120 :=
    sum_slotUs_of_bitSlots (List.forall_mem_append.mpr ⟨slotUs_of_mem_writeSlots d, slotUs_of_mem_writeSlots e⟩)
  rw [busTimeUs, List.map_cons, List.sum_cons, slotUs_reset, hbytes, List.length_cons, List.length_append,
    writeSlots_length, writeSlots_length]

theorem busTimeUs_convertPhase : busTimeUs convertPhase = 2080 + 16 * Config.tRec :=
  busTimeUs_resetThenTwoBytes ..

theorem busTimeUs_readPhase : busTimeUs readPhase = 2080 + 16 * Config.tRec :=
  busTimeUs_resetThenTwoBytes ..

/-! ### The slots of one TXN.STEP, and the times of the commands (R243) -/

/-- The slots that TXN.STEP performs, with the sensor's answers in them (R180). -/
def txnStepEvents (s : State) : Trace :=
  match s.txnState with
  | .apc => if s.presenceAnswer then convertPhase else [.reset false]
  | .wcd => [.r s.bitAnswer]
  | .apr => if s.presenceAnswer then readPhase else [.reset false]
  | .rsp => readSlots (s.nextBits (8 * s.chunk))
  | .idle => []
  | .done => []
  | .err => []

/-- What a TXN.STEP that answers a next state appends to TRACE, by the arm that runs. -/
theorem exec_txnStep_trace {s t : State} (h : exec .txnStep s = .next t) :
    t.trace = s.trace ++ txnStepEvents s := by
  cases exec_txnStep_arm h with
  | quiet hs =>
    have hnone : txnStepEvents s = [] := by
      cases hq : s.txnState with
      | idle | done | err => rw [txnStepEvents, hq]
      | apc | wcd | apr | rsp => rw [hq] at hs; cases hs
    rw [hnone, List.append_nil]
    rfl
  | apc hs => rw [stepApc_trace, txnStepEvents, hs]
  | wcd hs => rw [stepWcd_trace, txnStepEvents, hs]
  | apr hs => rw [stepApr_trace, txnStepEvents, hs]
  | rsp hs hrsp =>
    have htrace : t.trace = s.rspAfterReads.trace := by
      rcases stepRsp_cases hrsp with rfl | ⟨temp, rfl⟩ <;> rfl
    rw [htrace, rspAfterReads_trace, txnStepEvents, hs]

/-- A reset that awaits presence takes its slot alone, or the whole phase. -/
theorem busTimeUs_awaitPresence {p : Bool} {phase : Trace}
    (hphase : busTimeUs phase = 2080 + 16 * Config.tRec) :
    busTimeUs (if p then phase else [.reset false]) = if p then 2080 + 16 * Config.tRec else 960 := by
  rw [apply_ite busTimeUs, hphase, busTimeUs_singleton, slotUs_reset]

/-- Settles O46: the slots appended are `txnStepEvents` or `commandEvents`, and each of these has its time. -/
theorem busTimeOfEachCommand : Obligations.BusTimeOfEachCommand := by
  intro i s t es hwf hgate hexec hes
  by_cases hi : i = .txnStep
  · subst hi
    obtain rfl := List.append_cancel_left (hes.symm.trans (exec_txnStep_trace hexec))
    unfold txnStepEvents
    cases s.txnState with
    | idle | done | err => exact busTimeUs_nil
    | apc => exact busTimeUs_awaitPresence busTimeUs_convertPhase
    | wcd => exact (busTimeUs_singleton _).trans (slotUs_r _)
    | apr => exact busTimeUs_awaitPresence busTimeUs_readPhase
    | rsp => exact busTimeUs_nextBits s s.chunk
  · obtain rfl : es = commandEvents s i := by
      have htrace := exec_trace hi hexec
      rw [if_pos ⟨hwf, hgate⟩] at htrace
      exact List.append_cancel_left (hes.symm.trans htrace)
    cases i with
    | busReset => exact (busTimeUs_singleton _).trans (slotUs_reset _)
    | busWbit b => exact (busTimeUs_singleton _).trans (slotUs_w b)
    | busRbit => exact (busTimeUs_singleton _).trans (slotUs_r _)
    | busWbyte d => exact busTimeUs_writeSlots d
    | busRbyte => exact busTimeUs_nextBits s 1
    | busRbytes n => exact busTimeUs_nextBits s n.toNat
    | txnStep => exact absurd rfl hi
    | spRd | crcClr | crcUpd | crcBuf | txnStart | txnAbort | txnStatus => exact busTimeUs_nil

end Sys2Proof.Machine
